-- ==== Sys2Proof/Word.lean ====
section
/-! DEFINITION. The word types of the block (spec/00_scope.md R7, R14 to R16). -/

namespace Sys2Proof

/-- One byte, bit 7 the most significant (R14). -/
abbrev Byte := BitVec 8

/-- One 2-bit slot of a control byte (R7: SLOT_BITS = 2). -/
abbrev Slot := BitVec 2

/-- A 16-bit pattern, the width of one MEASURE field (R16, R36). -/
abbrev Half := BitVec 16

/-- KEY: 16 bytes (R7: KEY_LEN = 16). -/
abbrev Key := Vector Byte 16

/-- An 8-byte payload, plaintext, ciphertext or keystream (R7: PAYLOAD_LEN = 8). -/
abbrev Block8 := Vector Byte 8

/-- PAD: 7 bytes (R10). -/
abbrev Padding := Vector Byte 7

/-- A byte string, the byte of index 0 first (R15): a command packet, a response packet, a buffer. -/
abbrev Packet := List Byte

end Sys2Proof
end

