-- ==== Sys2Proof/Config.lean ====
section
/-! DEFINITION. The implementation parameters of the block (spec/00_scope.md R8 to R12) and the value KEY holds
before it is loaded. All of them are open: `Config.chip` and `Config.keyAtReset` have no body, so no proof can see them. -/

namespace Sys2Proof

/-- The parameters of one block. Every value of this type is a legal configuration and every legal configuration is a
value of it (DESIGN CHOICE of representation, safe: log entry 3): the two type tags differ by construction, and KIND_CODE is a bijection by construction. -/
structure Config where
  /-- TAG_MEASURE (R8). -/
  tagMeasure : Byte
  /-- TAG_CONTROL lies `tagGap + 1` above TAG_MEASURE modulo 256, so that it is any byte but TAG_MEASURE (R8). -/
  tagGap : Fin 255
  /-- KIND_CODE as a permutation of the four codes (R9): the code of the kind listed `i`-th in T, L, H, P. -/
  kindPerm : Equiv.Perm Slot
  /-- PAD[0..6] (R10). -/
  pad : Padding
  /-- KS: the keystream of key, type tag, device id and nonce (R11). -/
  ks : Key → Byte → Byte → Byte → Block8
  /-- TAG: the integrity tag of key, type tag, device id, nonce and plaintext payload (R12). -/
  tag : Key → Byte → Byte → Byte → Block8 → Byte
  deriving Inhabited

/-- The configuration of the modelled block. OPEN (R8 to R12): nothing is known of it. -/
opaque Config.chip : Config

/-- What the storage of KEY holds after the n-th reset, before a KEYLD: a FREE VALUE (R31: "unspecified"; DESIGN CHOICE, log entry 2).
No operation reads it while KEY_VALID is 0. -/
opaque Config.keyAtReset : Nat → Key

end Sys2Proof
end

