-- ==== Sys2Proof/Syntax.lean ====
section
/-! DEFINITION. The syntax of the block: sensor kinds, frame types, failure reasons, the commands and data formats of
spec/opcode_table.json, their encoded forms, and what a host presents to the block. -/

namespace Sys2Proof

/-- The four sensor kinds (R68). -/
inductive SensorKind where
  | temperature
  | light
  | humidity
  | pressure
  deriving DecidableEq, Repr

/-- The two frame types, the selector `ft` of R50. -/
inductive FrameType where
  | measure
  | control
  deriving DecidableEq, Repr

/-- The eight failure reasons (R102, R103). -/
inductive Failure where
  /-- DECODE: the buffer is not 12 bytes long. -/
  | badLength
  /-- DECODE: byte 0 is neither type tag. -/
  | unknownType
  /-- DECODE: the tag does not match. -/
  | authFailed
  /-- PARSE: not four letters of T, L, H, P. -/
  | invalidOrder
  /-- ENCODE, DECODE, CTRLTX: KEY_VALID is 0 when the key is needed. -/
  | keyNotLoaded
  /-- KEYLD: KEY_VALID is 1. -/
  | keyLocked
  /-- PACK, ENCODE: an operand out of range. -/
  | badOperand
  /-- The packet decoder: unknown opcode or wrong packet length. -/
  | badCommand
  deriving DecidableEq, Repr

/-- The seven opcodes of the command port (R57). -/
inductive Opcode where
  | keyld
  | pack
  | parse
  | unpack
  | encode
  | decode
  | ctrltx
  deriving DecidableEq, Repr

/-- One constructor per row of spec/opcode_table.json. The first seven are the commands of FMT-P (R57); the last three
are the rows of the data formats FMT-F and FMT-C (R49, R54; DESIGN CHOICE, log entries 4 and 5). -/
inductive Instr where
  /-- KEYLD K (R58, R99). -/
  | keyld (k : Key)
  /-- PACK a, b, c, d (R59, R69). -/
  | pack (a b c d : Byte)
  /-- PARSE TXT (R60, R70). -/
  | parse (txt : Packet)
  /-- UNPACK CTRL (R61, R71). -/
  | unpack (ctrl : Byte)
  /-- ENCODE ft, id, n, PL (R62, R85). -/
  | encode (ft id n : Byte) (pl : Packet)
  /-- DECODE RXBUF (R63, R87). -/
  | decode (rxbuf : Packet)
  /-- CTRLTX id, CTRL (R64, R97). -/
  | ctrltx (id ctrl : Byte)
  /-- FRAME.MEASURE: a wire frame whose type tag is TAG_MEASURE (R49, R91). -/
  | frameMeasure (id n : Byte) (ct : Block8) (g : Byte)
  /-- FRAME.CONTROL: a wire frame whose type tag is TAG_CONTROL (R49, R92). -/
  | frameControl (id n : Byte) (ct : Block8) (g : Byte)
  /-- CTRLBYTE: a control byte, slot 0 first (R54, R69). -/
  | ctrlByte (s0 s1 s2 s3 : Slot)
  deriving DecidableEq, Repr

/-- The encoded form of an instruction, by its format (R48). -/
inductive Encoded where
  /-- FMT-P: a command packet. -/
  | fmtP (cmd : Packet)
  /-- FMT-F: a received buffer, a wire frame if it is 12 bytes long and begins with a type tag. -/
  | fmtF (buf : Packet)
  /-- FMT-C: a control byte. -/
  | fmtC (ctrl : Byte)
  deriving DecidableEq, Repr

/-- What a host presents to the block: a command, or the reset event (R4, R119). -/
inductive HostInput where
  | command (e : Encoded)
  | reset
  deriving DecidableEq, Repr

/-- The parts of a 12-byte frame (R35, R49). -/
structure FrameParts where
  /-- Byte 0, the type tag. -/
  t : Byte
  /-- Byte 1, the device id. -/
  id : Byte
  /-- Byte 2, the nonce. -/
  n : Byte
  /-- Bytes 3 to 10, the ciphertext payload. -/
  ct : Block8
  /-- Byte 11, the integrity tag. -/
  g : Byte
  deriving DecidableEq, Repr

/-- A Measurement (R36, R51, R91): the four decoded sensor values as the numbers they stand for. -/
structure Measurement where
  /-- Hundredths of a degree, signed. -/
  temperatureCenti : Int
  /-- Hundredths of a percent. -/
  humidityCenti : Nat
  /-- Tenths of a hectopascal. -/
  pressureDecihpa : Nat
  /-- Raw illuminance count. -/
  lux : Nat
  deriving DecidableEq, Repr

end Sys2Proof
end

