-- ==== Sys2Proof/Machine/Operands.lean ====
section
/-! DEFINITION. Every operand form of the block: type tags, sensor kinds and letters, control-byte slots, payload padding,
the frame's byte map, and the 16-bit fields of a MEASURE payload. -/

namespace Sys2Proof.Machine

/-- TAG_CONTROL (R8): any byte but TAG_MEASURE. -/
def tagControl (c : Config) : Byte :=
  c.tagMeasure + 1#8 + BitVec.ofNat 8 c.tagGap.val

/-- TAGOF (R50): the type tag of a frame type. -/
def tagOf (c : Config) : FrameType → Byte
  | .measure => c.tagMeasure
  | .control => tagControl c

/-- The reading of a type tag (R50): the two tags are frame types, every other byte is invalid. -/
def typeOfTag (c : Config) (t : Byte) : Option FrameType :=
  if t = c.tagMeasure then some .measure else if t = tagControl c then some .control else none

/-- The operand `ft` of ENCODE (R62): 0 is MEASURE, 1 is CONTROL, every other byte is out of range. -/
def typeOfSelector (ft : Byte) : Option FrameType :=
  if ft = 0#8 then some .measure else if ft = 1#8 then some .control else none

/-- The selector byte of a frame type in a DECODE response (R50, R63). -/
def selectorOf : FrameType → Byte
  | .measure => 0x00#8
  | .control => 0x01#8

/-- The place of a kind in the listing T, L, H, P (R9, R68), which numbers the argument of `Config.kindPerm`. -/
def kindIndex : SensorKind → Slot
  | .temperature => 0#2
  | .light => 1#2
  | .humidity => 2#2
  | .pressure => 3#2

/-- The kind at a place of the listing T, L, H, P. -/
def kindAtIndex (i : Slot) : SensorKind :=
  if i = 0#2 then .temperature else if i = 1#2 then .light else if i = 2#2 then .humidity else .pressure

/-- CODE(k), KIND_CODE (R9, R68): the 2-bit code of a kind. -/
def kindCode (c : Config) (k : SensorKind) : Slot := c.kindPerm (kindIndex k)

/-- KIND_OF(s), the inverse of KIND_CODE (R9). -/
def kindOf (c : Config) (s : Slot) : SensorKind := kindAtIndex (c.kindPerm.symm s)

/-- LETTER(k) (R68), upper case, as its ASCII code (R55; PRESUMED by the spec, log entry 11). -/
def letter : SensorKind → Byte
  | .temperature => 0x54#8
  | .light => 0x4C#8
  | .humidity => 0x48#8
  | .pressure => 0x50#8

/-- KINDCH(ch) (R55, R68): the eight accepted bytes, either case; every other byte is no kind. -/
def kindOfChar (ch : Byte) : Option SensorKind :=
  if ch = 0x54#8 ∨ ch = 0x74#8 then some .temperature
  else if ch = 0x4C#8 ∨ ch = 0x6C#8 then some .light
  else if ch = 0x48#8 ∨ ch = 0x68#8 then some .humidity
  else if ch = 0x50#8 ∨ ch = 0x70#8 then some .pressure
  else none

/-- The four codes of a control byte laid into it, slot 0 in bits 7:6 (R38, R54, R69). -/
def packCodes (a b c d : Byte) : Byte :=
  (a <<< 6) ||| (b <<< 4) ||| (c <<< 2) ||| d

/-- A slot code as the byte an operand or a response carries it in (R59, R61). -/
def slotByte (s : Slot) : Byte := s.setWidth 8

/-- s0 = CTRL[7:6] (R54). -/
def slot0 (ctrl : Byte) : Slot := ctrl.extractLsb' 6 2

/-- s1 = CTRL[5:4] (R54). -/
def slot1 (ctrl : Byte) : Slot := ctrl.extractLsb' 4 2

/-- s2 = CTRL[3:2] (R54). -/
def slot2 (ctrl : Byte) : Slot := ctrl.extractLsb' 2 2

/-- s3 = CTRL[1:0] (R54). -/
def slot3 (ctrl : Byte) : Slot := ctrl.extractLsb' 0 2

/-- One byte of PT8 (R53): the payload's own byte where it has one, else 0x00 at position 0 and PAD[i-1] at position i. -/
def padByte (c : Config) (pl : Packet) (i : Fin 8) : Byte :=
  match pl[i.val]? with
  | some b => b
  | none => if i.val = 0 then 0x00#8 else c.pad.toList.getD (i.val - 1) 0x00#8

/-- pad(PL) (R53): PT8 of a payload of up to 8 bytes (lengths other than 1 and 8: UNVERIFIED, log entry 8). -/
def padPayload (c : Config) (pl : Packet) : Block8 := Vector.ofFn (padByte c pl)

/-- SERDES.BUILD (R86): the 12 bytes of a frame by the byte map of R35. -/
def buildFrame (f : FrameParts) : Packet := [f.t, f.id, f.n] ++ f.ct.toList ++ [f.g]

/-- SERDES.SPLIT (R88): the parts of a 12-byte buffer; a buffer of another length has none. -/
def splitFrame : Packet → Option FrameParts
  | [t, id, n, c0, c1, c2, c3, c4, c5, c6, c7, g] =>
    some { t := t, id := id, n := n, ct := #v[c0, c1, c2, c3, c4, c5, c6, c7], g := g }
  | _ => none

/-- be16(v) (R16): the high byte first. -/
def be16 (v : Half) : Packet := [v.extractLsb' 8 8, v.extractLsb' 0 8]

/-- MemRead(buf, off, 2) (R17, R37): the bytes at `off` and `off + 1`, the first the more significant. -/
def ube16 (hi lo : Byte) : Nat := hi.toNat * 256 + lo.toNat

/-- sext_16(v) (R16): the two's-complement reading of a 16-bit pattern (PRESUMED by the spec, log entry 11). -/
def sext16 (v : Nat) : Int := if v < 32768 then (v : Int) else (v : Int) - 65536

/-- The payload of a Measurement (R51): be16(T mod 65536) ++ be16(H) ++ be16(P) ++ be16(X). -/
def measurementPayload (m : Measurement) : Packet :=
  be16 (BitVec.ofInt 16 m.temperatureCenti) ++ be16 (BitVec.ofNat 16 m.humidityCenti) ++
    be16 (BitVec.ofNat 16 m.pressureDecihpa) ++ be16 (BitVec.ofNat 16 m.lux)

/-- The Measurement read from PT8 (R51, R91). -/
def measurementOf (pt : Block8) : Measurement :=
  { temperatureCenti := sext16 (ube16 pt[0] pt[1])
    humidityCenti := ube16 pt[2] pt[3]
    pressureDecihpa := ube16 pt[4] pt[5]
    lux := ube16 pt[6] pt[7] }

end Sys2Proof.Machine
end

