-- ==== Sys2Proof/Decode.lean ====
section
/-! DEFINITION. From the encoded forms to instructions, rejecting by failure reason, and back (spec/30_encoding.md). -/

namespace Sys2Proof

open Sys2Proof.Machine

/-- The opcode map (R57): `CMD[0]` to its command; every other byte is no opcode. -/
def opcodeOf (b : Byte) : Option Opcode :=
  if b = 0x01#8 then some .keyld
  else if b = 0x02#8 then some .pack
  else if b = 0x03#8 then some .parse
  else if b = 0x04#8 then some .unpack
  else if b = 0x10#8 then some .encode
  else if b = 0x11#8 then some .decode
  else if b = 0x12#8 then some .ctrltx
  else none

/-- The opcode byte of a command (R57). -/
def opcodeByte : Opcode → Byte
  | .keyld => 0x01#8
  | .pack => 0x02#8
  | .parse => 0x03#8
  | .unpack => 0x04#8
  | .encode => 0x10#8
  | .decode => 0x11#8
  | .ctrltx => 0x12#8

/-- The packet length of R57, from the opcode and the packet's own length byte (`cmd i` is CMD[i]). -/
def packetLength (op : Opcode) (cmd : Nat → Byte) : Nat :=
  match op with
  | .keyld => 17
  | .pack => 5
  | .parse => 2 + (cmd 1).toNat
  | .unpack => 2
  | .encode => 5 + (cmd 4).toNat
  | .decode => 2 + (cmd 1).toNat
  | .ctrltx => 3

/-- The operands that follow an opcode (R58 to R64), none where the packet's length is not that of R57. -/
def decodeOperands : Opcode → Packet → Option Instr
  | .keyld, k => if h : k.length = 16 then some (.keyld ⟨k.toArray, h⟩) else none
  | .pack, [a, b, c, d] => some (.pack a b c d)
  | .parse, m :: txt => if txt.length = m.toNat then some (.parse txt) else none
  | .unpack, [ctrl] => some (.unpack ctrl)
  | .encode, ft :: id :: n :: l :: pl => if pl.length = l.toNat then some (.encode ft id n pl) else none
  | .decode, m :: rxbuf => if rxbuf.length = m.toNat then some (.decode rxbuf) else none
  | .ctrltx, [id, ctrl] => some (.ctrltx id ctrl)
  | .pack, _ => none
  | .parse, _ => none
  | .unpack, _ => none
  | .encode, _ => none
  | .decode, _ => none
  | .ctrltx, _ => none

/-- The packet decoder (R56, R57, R65): an unknown opcode, a wrong length and the empty packet are BadCommand. -/
def decodePacket : Packet → Except Failure Instr
  | [] => .error .badCommand
  | b :: operands =>
    match opcodeOf b with
    | none => .error .badCommand
    | some op =>
      match decodeOperands op operands with
      | some i => .ok i
      | none => .error .badCommand

/-- A buffer read as a wire frame (R49, R50): another length than 12 is BadLength, another byte 0 than the two type tags
is UnknownType. -/
def decodeFrame (c : Config) (buf : Packet) : Except Failure Instr :=
  match splitFrame buf with
  | none => .error .badLength
  | some f =>
    match typeOfTag c f.t with
    | none => .error .unknownType
    | some .measure => .ok (.frameMeasure f.id f.n f.ct f.g)
    | some .control => .ok (.frameControl f.id f.n f.ct f.g)

/-- A control byte read as its four slots (R54); all 256 values are legal. -/
def decodeCtrlByte (ctrl : Byte) : Instr :=
  .ctrlByte (slot0 ctrl) (slot1 ctrl) (slot2 ctrl) (slot3 ctrl)

/-- The decoder: total on every encoded form, rejecting by failure reason. -/
def decode : Encoded → Except Failure Instr
  | .fmtP cmd => decodePacket cmd
  | .fmtF buf => decodeFrame Config.chip buf
  | .fmtC ctrl => .ok (decodeCtrlByte ctrl)

/-! ## The encoder -/

/-- A byte string with its length byte before it (R60, R63). -/
def lengthPrefixed (b : Packet) : Packet := BitVec.ofNat 8 b.length :: b

/-- The encoded form of an instruction (R49, R54, R58 to R64). -/
def encode : Instr → Encoded
  | .keyld k => .fmtP (opcodeByte .keyld :: k.toList)
  | .pack a b c d => .fmtP [opcodeByte .pack, a, b, c, d]
  | .parse txt => .fmtP (opcodeByte .parse :: lengthPrefixed txt)
  | .unpack ctrl => .fmtP [opcodeByte .unpack, ctrl]
  | .encode ft id n pl => .fmtP (opcodeByte .encode :: ft :: id :: n :: lengthPrefixed pl)
  | .decode rxbuf => .fmtP (opcodeByte .decode :: lengthPrefixed rxbuf)
  | .ctrltx id ctrl => .fmtP [opcodeByte .ctrltx, id, ctrl]
  | .frameMeasure id n ct g =>
    .fmtF (buildFrame { t := tagOf Config.chip .measure, id := id, n := n, ct := ct, g := g })
  | .frameControl id n ct g =>
    .fmtF (buildFrame { t := tagOf Config.chip .control, id := id, n := n, ct := ct, g := g })
  | .ctrlByte s0 s1 s2 s3 => .fmtC (packCodes (slotByte s0) (slotByte s1) (slotByte s2) (slotByte s3))

/-! ## The opcode table's numbering of an instruction's bits -/

/-- Byte `i` of an instruction given as a number, bit 0 the least significant bit of its first byte. -/
def tableByte (w i : Nat) : Byte := BitVec.ofNat 8 (w / 256 ^ i)

/-- The encoded form of the instruction whose low `nbits` bits are `w` and whose further bits are 0 (DESIGN CHOICE, log entry 12).
A row of 96 bits is a wire frame (FMT-F). A first byte that is an opcode of R57 begins a command packet, as long as R57
says. Any other row of one byte can only be the row of FMT-C. -/
def tableEncoded (nbits w : Nat) : Encoded :=
  let v := w % 2 ^ nbits
  if nbits = 96 then .fmtF ((List.range 12).map (tableByte v))
  else
    match opcodeOf (tableByte v 0) with
    | some op => .fmtP ((List.range (packetLength op (tableByte v))).map (tableByte v))
    | none => if nbits ≤ 8 then .fmtC (tableByte v 0) else .fmtP ((List.range (nbits / 8)).map (tableByte v))

/-- The instruction the decoder reads from an instruction's bits as spec/opcode_table.json numbers them. -/
def decodeTableWord (nbits w : Nat) : Option Instr :=
  match decode (tableEncoded nbits w) with
  | .ok i => some i
  | .error _ => none

end Sys2Proof
end

