-- ==== Sys2Proof/Machine/Flags.lean ====
section
/-! DEFINITION. The block has no flags and no condition codes (spec/10_state.md R27). What an operation computes in their
place is its outcome: the status byte of the response (spec/30_encoding.md R67) and the class of a failure (R106). -/

namespace Sys2Proof.Machine

/-- The status code of OK (R67). -/
def statusOk : Byte := 0x00#8

/-- The status code of a failure reason (R67, R102, R103). -/
def failureCode : Failure → Byte
  | .badLength => 0x01#8
  | .unknownType => 0x02#8
  | .authFailed => 0x03#8
  | .invalidOrder => 0x04#8
  | .keyNotLoaded => 0x10#8
  | .keyLocked => 0x11#8
  | .badOperand => 0x12#8
  | .badCommand => 0x1F#8

/-- The classes of failure the source names (R106). -/
inductive FailureClass where
  | formatError
  | authError
  | parseError
  deriving DecidableEq, Repr

/-- The class of a failure reason (R67, R106); the four reasons added by the spec are in none. -/
def failureClass : Failure → Option FailureClass
  | .badLength => some .formatError
  | .unknownType => some .formatError
  | .authFailed => some .authError
  | .invalidOrder => some .parseError
  | .keyNotLoaded => none
  | .keyLocked => none
  | .badOperand => none
  | .badCommand => none

/-- The response packet of an outcome (R56, R67, R104): OK and the result bytes, or the status byte alone. -/
def responseOf : Except Failure Packet → Packet
  | .ok result => statusOk :: result
  | .error f => [failureCode f]

end Sys2Proof.Machine
end

