-- ==== Sys2Proof/Machine/State.lean ====
section
/-! DEFINITION. The state of one block as plain data, its faults and refusals, and the state after reset
(spec/10_state.md). -/

namespace Sys2Proof.Machine

/-- One block and its command port. The first three fields are the whole persistent state of the spec (R22 to R25, R31);
the last three are the model's own (DESIGN CHOICE, log entries 1 and 2). -/
structure State where
  /-- KEY (R22). Read through `State.loadedKey` only. -/
  key : Key
  /-- KEY_VALID (R23). -/
  keyValid : Bool
  /-- SEQ, the SequenceCounter (R24). -/
  seq : Byte
  /-- What the host has presented and the block has not yet accepted, oldest first (R43, R45). -/
  inbox : List HostInput
  /-- The responses returned to the host, oldest first (R56). No operation reads them (R25). -/
  outbox : List Packet
  /-- How many reset events there have been: the number of the free value that KEY then holds (R31). -/
  resets : Nat
  deriving DecidableEq, Repr

/-- The ways the block can stop with a fault: there is none (R118: no operation can "hang, fault the block or make it
unusable"; DEDUCED, log entry 7). A failure reason of R102 or R103 is an answer and the block goes on. -/
inductive Fault where
  deriving DecidableEq, Repr

/-- The ways a step can be refused. -/
inductive Refusal where
  /-- Raised by an arm of `exec` whose instruction has no meaning yet; safe, since nothing is then proved of it. No arm
  raises it: every row of the opcode table has its meaning. -/
  | notModelled (mnemonic : String)
  deriving DecidableEq, Repr

/-- The outcome of one step of the block. -/
abbrev StepOutcome := Host.Outcome State Fault Refusal

/-- The block right after reset (R31, R119): SEQ = 0x00, KEY_VALID = 0, KEY a free value, nothing presented and nothing
answered. -/
def State.reset : State :=
  { key := Config.keyAtReset 0
    keyValid := false
    seq := 0x00#8
    inbox := []
    outbox := []
    resets := 0 }

end Sys2Proof.Machine
end

