-- ==== Sys2Proof/Machine/Ops.lean ====
section
/-! DEFINITION. The named operations over State: the accessor of the key, the writes of KEY, KEY_VALID and SEQ, the port,
reset, and the two ways an operation ends: with OK, or by raising a failure. -/

namespace Sys2Proof.Machine

/-- The key as CIPHER and MAC read it (R22, R23): nothing while KEY_VALID is 0 (R31). -/
def State.loadedKey (s : State) : Option Key :=
  match s.keyValid with
  | true => some s.key
  | false => none

/-- KEY := k and KEY_VALID := 1, the write of KEYLD (R99). -/
def State.installKey (s : State) (k : Key) : State := { s with key := k, keyValid := true }

/-- SEQ + 1 modulo 256 (R24, R98). -/
def State.nextSeq (s : State) : Byte := s.seq + 1#8

/-- SEQ := (SEQ + 1) mod 256, the write of CTRLTX (R97). -/
def State.stepSeq (s : State) : State := { s with seq := s.nextSeq }

/-- One response packet returned to the host (R56). -/
def State.respond (s : State) (r : Packet) : State := { s with outbox := s.outbox ++ [r] }

/-- The port's queue replaced (R43). -/
def State.withInbox (s : State) (q : List HostInput) : State := { s with inbox := q }

/-- The host presents one more input; it waits behind those presented before it (R43, R45). -/
def State.present (s : State) (x : HostInput) : State := s.withInbox (s.inbox ++ [x])

/-- The reset event (R119): SEQ = 0x00, KEY_VALID = 0, KEY without a known value. What the host has presented and what it
has been answered are the host's and stay (DESIGN CHOICE, log entry 6). -/
def State.afterReset (s : State) : State :=
  { s with
    key := Config.keyAtReset (s.resets + 1)
    keyValid := false
    seq := 0x00#8
    resets := s.resets + 1 }

/-- raise f (R17, R104), the block's one way to take a failure: a response of the one status byte, and no other effect.
There is nothing to return from and nothing to clear (R105). -/
def raise (f : Failure) (s : State) : StepOutcome := .next (s.respond [failureCode f])

/-- return OK(result) (R17, R56, R67). -/
def succeed (result : Packet) (s : State) : StepOutcome := .next (s.respond (statusOk :: result))

/-- The end of an operation that writes no persistent state: its result, or its failure. -/
def answer (r : Except Failure Packet) (s : State) : StepOutcome :=
  match r with
  | .ok result => succeed result s
  | .error f => raise f s

end Sys2Proof.Machine
end

