-- ==== Sys2Proof/Machine/Packer.lean ====
section
/-! DEFINITION. The sensor-order bit-packer: PACK, PARSE, UNPACK and the control byte (spec/40_sensor_order.md).
It reads no state and writes none. -/

namespace Sys2Proof.Machine

/-- PACK (R69). -/
def packOp (a b c d : Byte) : Except Failure Byte :=
  if a > 3#8 ∨ b > 3#8 ∨ c > 3#8 ∨ d > 3#8 then .error .badOperand else .ok (packCodes a b c d)

/-- The control byte of four kinds, slot 0 first (R69, R70). -/
def orderByte (c : Config) (k0 k1 k2 k3 : SensorKind) : Byte :=
  packCodes (slotByte (kindCode c k0)) (slotByte (kindCode c k1)) (slotByte (kindCode c k2)) (slotByte (kindCode c k3))

/-- PARSE (R70). -/
def parseOp (c : Config) (txt : Packet) : Except Failure Byte :=
  match txt with
  | [ch0, ch1, ch2, ch3] =>
    match kindOfChar ch0, kindOfChar ch1, kindOfChar ch2, kindOfChar ch3 with
    | some k0, some k1, some k2, some k3 => .ok (orderByte c k0 k1 k2 k3)
    | _, _, _, _ => .error .invalidOrder
  | _ => .error .invalidOrder

/-- UNPACK (R71): the four slot codes, then the four upper-case letters. -/
def unpackOp (c : Config) (ctrl : Byte) : Packet :=
  [slotByte (slot0 ctrl), slotByte (slot1 ctrl), slotByte (slot2 ctrl), slotByte (slot3 ctrl),
    letter (kindOf c (slot0 ctrl)), letter (kindOf c (slot1 ctrl)), letter (kindOf c (slot2 ctrl)),
    letter (kindOf c (slot3 ctrl))]

/-- A one-byte result as result bytes. -/
def oneByte (r : Except Failure Byte) : Except Failure Packet :=
  match r with
  | .ok b => .ok [b]
  | .error f => .error f

/-- PACK (R59, R69). -/
def execPack (a b c d : Byte) (s : State) : StepOutcome := answer (oneByte (packOp a b c d)) s

/-- PARSE (R60, R70). -/
def execParse (txt : Packet) (s : State) : StepOutcome := answer (oneByte (parseOp Config.chip txt)) s

/-- UNPACK (R61, R71). -/
def execUnpack (ctrl : Byte) (s : State) : StepOutcome := answer (.ok (unpackOp Config.chip ctrl)) s

/-- CTRLBYTE (R54, R69; DESIGN CHOICE, log entry 5): the four slot codes packed into the control byte they stand in. -/
def execCtrlByte (s0 s1 s2 s3 : Slot) (s : State) : StepOutcome :=
  answer (oneByte (packOp (slotByte s0) (slotByte s1) (slotByte s2) (slotByte s3))) s

end Sys2Proof.Machine
end

