-- ==== Sys2Proof/Machine/Cipher.lean ====
section
/-! DEFINITION. The symmetric-cipher core (spec/41_cipher_core.md). It has no state of its own (R73). -/

namespace Sys2Proof.Machine

/-- CIPHER.KSGEN (R74). -/
def ksgen (c : Config) (k : Key) (t id n : Byte) : Block8 := c.ks k t id n

/-- CIPHER.XOR8 (R75); the same operation builds and parses (R76). -/
def xor8 (x ks : Block8) : Block8 := Vector.ofFn fun i : Fin 8 => x[i] ^^^ ks[i]

end Sys2Proof.Machine
end

