-- ==== Sys2Proof/Machine/Mac.lean ====
section
/-! DEFINITION. The keyed-MAC core (spec/42_mac_core.md). It has no state of its own (R79). -/

namespace Sys2Proof.Machine

/-- MAC.TAGGEN (R80): the tag is over the padded plaintext. -/
def taggen (c : Config) (k : Key) (t id n : Byte) (pt : Block8) : Byte := c.tag k t id n pt

/-- MAC.TAGCMP (R81): all 8 bits equal. -/
def tagcmp (c : Config) (k : Key) (t id n : Byte) (pt : Block8) (g : Byte) : Bool :=
  decide (taggen c k t id n pt = g)

end Sys2Proof.Machine
end

