-- ==== Sys2Proof/Machine/Serdes.lean ====
section
/-! DEFINITION. The frame serializer/deserializer: ENCODE, DECODE and the two frame types (spec/43_frame_codec.md).
It reads the key and writes no persistent state (R84). -/

namespace Sys2Proof.Machine

/-- The frame of a padded payload (R85, from `t = TAGOF(ft)` on). -/
def sealFrame (c : Config) (k : Key) (ft : FrameType) (id n : Byte) (pt : Block8) : Packet :=
  buildFrame
    { t := tagOf c ft
      id := id
      n := n
      ct := xor8 pt (ksgen c k (tagOf c ft) id n)
      g := taggen c k (tagOf c ft) id n pt }

/-- ENCODE (R85): BadOperand, then KeyNotLoaded (R107), then the frame. -/
def encodeOp (c : Config) (key : Option Key) (ft id n : Byte) (pl : Packet) : Except Failure Packet :=
  match typeOfSelector ft with
  | none => .error .badOperand
  | some ty =>
    if pl.length > 8 then .error .badOperand
    else
      match key with
      | none => .error .keyNotLoaded
      | some k => .ok (sealFrame c k ty id n (padPayload c pl))

/-- The result of a good frame (R63, R91, R92): MEASURE, id and PT8; or CONTROL, id and PT8[0]. -/
def frameResult (ty : FrameType) (id : Byte) (pt : Block8) : Packet :=
  match ty with
  | .measure => [selectorOf .measure, id] ++ pt.toList
  | .control => [selectorOf .control, id, pt[0]]

/-- Steps 2b to 4 of DECODE (R87) on a frame whose type is known. -/
def openFrame (c : Config) (key : Option Key) (ty : FrameType) (id n : Byte) (ct : Block8) (g : Byte) :
    Except Failure Packet :=
  match key with
  | none => .error .keyNotLoaded
  | some k =>
    let pt := xor8 ct (ksgen c k (tagOf c ty) id n)
    if tagcmp c k (tagOf c ty) id n pt g then .ok (frameResult ty id pt) else .error .authFailed

/-- DECODE (R87): BadLength, UnknownType, KeyNotLoaded, AuthFailed in that order (R107), else the result. -/
def decodeOp (c : Config) (key : Option Key) (rxbuf : Packet) : Except Failure Packet :=
  match splitFrame rxbuf with
  | none => .error .badLength
  | some f =>
    match typeOfTag c f.t with
    | none => .error .unknownType
    | some ty => openFrame c key ty f.id f.n f.ct f.g

/-- ENCODE (R62, R85). -/
def execEncode (ft id n : Byte) (pl : Packet) (s : State) : StepOutcome :=
  answer (encodeOp Config.chip s.loadedKey ft id n pl) s

/-- DECODE (R63, R87). -/
def execDecode (rxbuf : Packet) (s : State) : StepOutcome := answer (decodeOp Config.chip s.loadedKey rxbuf) s

/-- FRAME.MEASURE (R49, R91; DESIGN CHOICE, log entry 4): the frame opened, its Measurement in the PT8 of the response. -/
def execFrameMeasure (id n : Byte) (ct : Block8) (g : Byte) (s : State) : StepOutcome :=
  answer (openFrame Config.chip s.loadedKey .measure id n ct g) s

/-- FRAME.CONTROL (R49, R92; DESIGN CHOICE, log entry 4): the frame opened, its control byte in the response. -/
def execFrameControl (id n : Byte) (ct : Block8) (g : Byte) (s : State) : StepOutcome :=
  answer (openFrame Config.chip s.loadedKey .control id n ct g) s

end Sys2Proof.Machine
end

