-- ==== Sys2Proof/Machine/Sequencer.lean ====
section
/-! DEFINITION. The control-frame sequencer and the key store: CTRLTX and KEYLD, the two commands that write persistent
state (spec/44_sequencer_and_key.md). -/

namespace Sys2Proof.Machine

/-- CTRLTX over a configuration (R97): SEQ is stepped first and the frame carries the new value. -/
def ctrltxOp (c : Config) (id ctrl : Byte) (s : State) : StepOutcome :=
  match s.loadedKey with
  | none => raise .keyNotLoaded s
  | some k => succeed (sealFrame c k .control id s.nextSeq (padPayload c [ctrl])) s.stepSeq

/-- CTRLTX (R64, R97). -/
def execCtrltx (id ctrl : Byte) (s : State) : StepOutcome := ctrltxOp Config.chip id ctrl s

/-- KEYLD (R58, R99): once between two resets. -/
def execKeyld (k : Key) (s : State) : StepOutcome :=
  match s.keyValid with
  | true => raise .keyLocked s
  | false => succeed [] (s.installKey k)

end Sys2Proof.Machine
end

