-- ==== Sys2Proof/Machine/Dispatch.lean ====
section
/-! DEFINITION. One arm per instruction: the meaning it has. -/

namespace Sys2Proof.Machine

def exec (i : Instr) (s : State) : Host.Outcome State Fault Refusal :=
  match i with
  -- spec/44_sequencer_and_key.md R99
  | .keyld k => Sys2Proof.Machine.execKeyld k s
  -- spec/40_sensor_order.md R69 to R71
  | .pack a b c d => Sys2Proof.Machine.execPack a b c d s
  | .parse txt => Sys2Proof.Machine.execParse txt s
  | .unpack ctrl => Sys2Proof.Machine.execUnpack ctrl s
  -- spec/43_frame_codec.md R85, R87
  | .encode ft id n pl => Sys2Proof.Machine.execEncode ft id n pl s
  | .decode rxbuf => Sys2Proof.Machine.execDecode rxbuf s
  -- spec/44_sequencer_and_key.md R97
  | .ctrltx id ctrl => Sys2Proof.Machine.execCtrltx id ctrl s
  -- the data formats: spec/43_frame_codec.md R91, R92 and spec/40_sensor_order.md R69
  | .frameMeasure id n ct g => Sys2Proof.Machine.execFrameMeasure id n ct g s
  | .frameControl id n ct g => Sys2Proof.Machine.execFrameControl id n ct g s
  | .ctrlByte s0 s1 s2 s3 => Sys2Proof.Machine.execCtrlByte s0 s1 s2 s3 s

end Sys2Proof.Machine
end

