-- ==== Sys2Proof/Machine/Accept.lean ====
section
/-! DEFINITION. What the block does with one input it has accepted, and the host-side macros of spec/30_encoding.md R66. -/

namespace Sys2Proof.Machine

/-- One accepted input: the reset event (R119), a command that decodes and runs, or one whose encoded form is rejected and
answered with the reason (R65). `s` is the state with the input already taken off the queue. -/
def acceptInput (x : HostInput) (s : State) : StepOutcome :=
  match x with
  | .reset => .next s.afterReset
  | .command e =>
    match decode e with
    | .ok i => exec i s
    | .error f => raise f s

/-- No input presented: the block has no step of its own between commands (R4). -/
def idle (s : State) : StepOutcome := .next s

/-- The words of a table instruction put first in the port's queue (DESIGN CHOICE, log entry 12). -/
def State.fetchNext (s : State) (nbits w : Nat) : State :=
  s.withInbox (.command (tableEncoded nbits w) :: s.inbox)

/-! ## Host-side macros (R66) -/

/-- ENCODE.M id, n, T, H, P, X: ENCODE of a MEASURE frame with the payload of R51. -/
def encodeM (id n : Byte) (m : Measurement) : Instr := .encode 0x00#8 id n (measurementPayload m)

/-- ENCODE.C id, n, ctrl: ENCODE of a CONTROL frame with the one-byte payload of R52. -/
def encodeC (id n ctrl : Byte) : Instr := .encode 0x01#8 id n [ctrl]

/-- What the host issues after the PARSE of SETORDER (R66): CTRLTX with the packed order if the status is OK, else
nothing. `r` is the response of the PARSE. -/
def setOrderNext (id : Byte) (r : Packet) : List Instr :=
  match r with
  | [status, ctrl] => if status = statusOk then [.ctrltx id ctrl] else []
  | _ => []

/-- SETORDER id, "text" (R66): PARSE, then what `setOrderNext` gives for its response. -/
def setOrder (id : Byte) (txt : Packet) (s : State) : StepOutcome :=
  match exec (.parse txt) s with
  | .next s' =>
    match setOrderNext id (s'.outbox.getLast?.getD []) with
    | [] => .next s'
    | i :: _ => exec i s'
  | .fault r => .fault r
  | .refused r => .refused r

end Sys2Proof.Machine
end

