-- ==== Sys2Proof/Machine/Step.lean ====
section
/-! DEFINITION. One step of the block: the oldest input presented is accepted and performed as one indivisible transition
(spec/20_memory.md R42, R43). -/

namespace Sys2Proof.Machine

/-- The step. -/
def step (s : State) : Host.Outcome State Fault Refusal :=
  match s.inbox with
  | [] => idle s
  | x :: rest => acceptInput x (s.withInbox rest)

/-- `s` with the table instruction of bits `w` presented as the very next input. -/
def State.withFetchWord (s : State) (nbits w : Nat) : State := s.fetchNext nbits w

end Sys2Proof.Machine
end

