-- ==== Sys2Proof/Safety.lean ====
section
/-! DEFINITION. What counts as a safe run of the block, in the terms the claims use. -/

namespace Sys2Proof.Machine

/-- The status codes of R67 other than OK. -/
def failureCodes : List Byte := [0x01#8, 0x02#8, 0x03#8, 0x04#8, 0x10#8, 0x11#8, 0x12#8, 0x1F#8]

/-- The forms a response packet may have (R58 to R64, R67, R104): OK with the result of some command, or the one byte of a
failure reason. -/
def legalResponse (r : Packet) : Bool :=
  match r with
  | [] => false
  | status :: result =>
    (decide (status = statusOk) && decide (result.length ∈ [0, 1, 3, 8, 10, 12])) ||
      (decide (status ∈ failureCodes) && result.isEmpty)

/-- The invariant of the block: SEQ stays 0 until a key is loaded (R24, R97, R119), and every response has a legal form
(R67: "Every other status value is never produced"). -/
def State.inv (s : State) : Bool :=
  (s.keyValid || decide (s.seq = 0x00#8)) && s.outbox.all legalResponse

/-- No reset event waits in a queue. -/
def noReset (q : List HostInput) : Bool := q.all fun x => decide (x ≠ .reset)

/-- The input is a CTRLTX packet (R64). -/
def isCtrltx (x : HostInput) : Bool :=
  match x with
  | .command (.fmtP [op, _, _]) => decide (op = 0x12#8)
  | _ => false

/-- The number of CTRLTX packets in a queue. -/
def countCtrltx (q : List HostInput) : Nat := q.countP isCtrltx

/-- `n` steps of the machine behind the host's interface. -/
def run (n : Nat) (s : State) : StepOutcome := Host.Core.run Sys2Proof.core n s

/-- `pt` is PT8 of the payload `pl` by the three cases of R53: the payload's bytes, then PAD[i-1] at each further position
i of 1 to 7, with 0x00 at position 0 of an empty payload. -/
def isPadded (c : Config) (pl : Packet) (pt : Block8) : Prop :=
  (∀ (i : Fin 8) (b : Byte), pl[i.val]? = some b → pt[i] = b) ∧
  (pl = [] → pt[0] = 0x00#8) ∧
  (∀ j : Fin 7, pl.length ≤ j.val + 1 → pt[j.val + 1] = c.pad[j])

/-- The byte `ch` is the letter of a kind, in either case (R55). -/
def spells (ch : Byte) : SensorKind → Prop
  | .temperature => ch = 0x54#8 ∨ ch = 0x74#8
  | .light => ch = 0x4C#8 ∨ ch = 0x6C#8
  | .humidity => ch = 0x48#8 ∨ ch = 0x68#8
  | .pressure => ch = 0x50#8 ∨ ch = 0x70#8

/-- The byte with an ASCII lower-case letter made upper case (R72 c). -/
def foldCase (ch : Byte) : Byte := if 0x61#8 ≤ ch ∧ ch ≤ 0x7A#8 then ch - 0x20#8 else ch

/-- A command packet with an opcode of R57 and of the length R57 gives for its opcode and length byte. -/
def lawfulPacket (cmd : Packet) : Prop :=
  (cmd[0]? = some 0x01#8 ∧ cmd.length = 17) ∨
  (cmd[0]? = some 0x02#8 ∧ cmd.length = 5) ∨
  (cmd[0]? = some 0x03#8 ∧ ∃ m, cmd[1]? = some m ∧ cmd.length = 2 + m.toNat) ∨
  (cmd[0]? = some 0x04#8 ∧ cmd.length = 2) ∨
  (cmd[0]? = some 0x10#8 ∧ ∃ l, cmd[4]? = some l ∧ cmd.length = 5 + l.toNat) ∨
  (cmd[0]? = some 0x11#8 ∧ ∃ m, cmd[1]? = some m ∧ cmd.length = 2 + m.toNat) ∨
  (cmd[0]? = some 0x12#8 ∧ cmd.length = 3)

/-- The operands a correct host gives (R103): PACK codes up to 3, an ENCODE selector up to 1 and payload up to 8 bytes. -/
def operandsInRange : Instr → Prop
  | .pack a b c d => a.toNat ≤ 3 ∧ b.toNat ≤ 3 ∧ c.toNat ≤ 3 ∧ d.toNat ≤ 3
  | .encode ft _ _ pl => ft.toNat ≤ 1 ∧ pl.length ≤ 8
  | _ => True

/-- The persistent state of R31, (KEY, KEY_VALID, SEQ), is the same in two states. -/
def sameTriple (s t : State) : Prop := s.key = t.key ∧ s.keyValid = t.keyValid ∧ s.seq = t.seq

/-- The named property TagBound of a tag function (R12, R83): of the 2^64 payloads under one key and header, at most
`2^56 + slack` have any one tag, that is one in 256 up to `slack` (DESIGN CHOICE of form, log entry 9). The machine never assumes it. -/
def TagBound (c : Config) (slack : Nat) : Prop :=
  ∀ (k : Key) (t id n g : Byte) (ps : List Block8),
    ps.Nodup → (∀ p ∈ ps, c.tag k t id n p = g) → ps.length ≤ 2 ^ 56 + slack

end Sys2Proof.Machine
end

