-- ==== Sys2Proof/WellFormed.lean ====
section
/-! DEFINITION. Which instructions and values have an encoding. -/

namespace Sys2Proof

/-- An instruction is well formed when it has an encoding: a byte string that a packet carries has at most 255 bytes,
since one byte holds its length (R60, R62, R63). An operand out of range (a PACK code above 3, an ENCODE selector above 1,
an ENCODE payload above 8 bytes) is encodable and answered BadOperand (R65 c), so it is well formed. -/
def Instr.wf : Instr → Bool
  | .keyld _ => true
  | .pack _ _ _ _ => true
  | .parse txt => decide (txt.length ≤ 255)
  | .unpack _ => true
  | .encode _ _ _ pl => decide (pl.length ≤ 255)
  | .decode rxbuf => decide (rxbuf.length ≤ 255)
  | .ctrltx _ _ => true
  | .frameMeasure _ _ _ _ => true
  | .frameControl _ _ _ _ => true
  | .ctrlByte _ _ _ _ => true

/-- The ranges of the four fields of a Measurement (R51, R91): s16, u16, u16, u16. -/
def Measurement.inRange (m : Measurement) : Bool :=
  decide (-32768 ≤ m.temperatureCenti ∧ m.temperatureCenti ≤ 32767 ∧ m.humidityCenti ≤ 65535 ∧
    m.pressureDecihpa ≤ 65535 ∧ m.lux ≤ 65535)

end Sys2Proof
end

