-- ==== Sys2Proof/Certificates/Slice0/Obligations.lean ====
section
/-! DEFINITION. The statements for the provers.

`s.respond r` is `s` with the packet `r` appended to the outbox and every other field (KEY, KEY_VALID, SEQ, the inbox, the
reset count) as in `s`, so a conclusion `exec i s = .next (s.respond r)` says that the instruction completes, what it
answers, and that nothing else changes. `Config.chip` is opaque: a statement about it holds for every configuration. -/

open Sys2Proof Sys2Proof.Machine

/-! ## The sensor-order bit-packer -/

/-- R69: PACK lays four codes into a control byte, slot 0 in bits 7:6, and raises BadOperand when a code is above 3. -/
def Obligations.PackResult : Prop :=
  ∀ (a b c d : Byte) (s : State),
    (a.toNat ≤ 3 ∧ b.toNat ≤ 3 ∧ c.toNat ≤ 3 ∧ d.toNat ≤ 3 →
      exec (.pack a b c d) s =
        .next (s.respond [0x00#8, BitVec.ofNat 8 (64 * a.toNat + 16 * b.toNat + 4 * c.toNat + d.toNat)])) ∧
    (¬(a.toNat ≤ 3 ∧ b.toNat ≤ 3 ∧ c.toNat ≤ 3 ∧ d.toNat ≤ 3) →
      exec (.pack a b c d) s = .next (s.respond [0x12#8]))

/-- R70: PARSE of four letters, in either case, answers the byte whose slot i is the code of the i-th letter's kind; every
other text is InvalidOrder. The bytes of the letters are ASCII (log entry 11). -/
def Obligations.ParseResult : Prop :=
  (∀ (ch0 ch1 ch2 ch3 : Byte) (k0 k1 k2 k3 : SensorKind) (s : State),
    spells ch0 k0 → spells ch1 k1 → spells ch2 k2 → spells ch3 k3 →
    ∃ ctrl : Byte, exec (.parse [ch0, ch1, ch2, ch3]) s = .next (s.respond [0x00#8, ctrl]) ∧
      ctrl.extractLsb' 6 2 = kindCode Config.chip k0 ∧ ctrl.extractLsb' 4 2 = kindCode Config.chip k1 ∧
      ctrl.extractLsb' 2 2 = kindCode Config.chip k2 ∧ ctrl.extractLsb' 0 2 = kindCode Config.chip k3) ∧
  (∀ (txt : Packet) (s : State),
    (txt.length ≠ 4 ∨ ∃ ch ∈ txt, ∀ k, ¬spells ch k) → exec (.parse txt) s = .next (s.respond [0x04#8]))

/-- R71: UNPACK answers the four slot codes, then the upper-case letters of their kinds, in ASCII (log entry 11). -/
def Obligations.UnpackResult : Prop :=
  ∀ (ctrl : Byte) (s : State), ∃ k0 k1 k2 k3 : SensorKind,
    (kindCode Config.chip k0).toNat = ctrl.toNat / 64 ∧ (kindCode Config.chip k1).toNat = ctrl.toNat / 16 % 4 ∧
    (kindCode Config.chip k2).toNat = ctrl.toNat / 4 % 4 ∧ (kindCode Config.chip k3).toNat = ctrl.toNat % 4 ∧
    exec (.unpack ctrl) s =
      .next (s.respond
        [0x00#8, BitVec.ofNat 8 (ctrl.toNat / 64), BitVec.ofNat 8 (ctrl.toNat / 16 % 4),
          BitVec.ofNat 8 (ctrl.toNat / 4 % 4), BitVec.ofNat 8 (ctrl.toNat % 4), letter k0, letter k1, letter k2, letter k3])

/-- R72: the four laws of the PACKER. (a) PACK and PARSE of what UNPACK answers give the byte back. (b) PARSE of upper-case
letters is onto the 256 bytes, and different orders give different bytes. (c) PARSE does not see the case of a letter.
(d) TLHP and PHLT give different bytes. The bytes of the letters are ASCII (log entry 11). -/
def Obligations.PackerLaws : Prop :=
  (∀ (ctrl : Byte) (s : State), ∃ s0 s1 s2 s3 c0 c1 c2 c3 : Byte,
    exec (.unpack ctrl) s = .next (s.respond [0x00#8, s0, s1, s2, s3, c0, c1, c2, c3]) ∧
    exec (.pack s0 s1 s2 s3) s = .next (s.respond [0x00#8, ctrl]) ∧
    exec (.parse [c0, c1, c2, c3]) s = .next (s.respond [0x00#8, ctrl])) ∧
  (∀ (ctrl : Byte) (s : State), ∃ k0 k1 k2 k3 : SensorKind,
    exec (.parse [letter k0, letter k1, letter k2, letter k3]) s = .next (s.respond [0x00#8, ctrl]) ∧
    ∀ j0 j1 j2 j3 : SensorKind,
      exec (.parse [letter j0, letter j1, letter j2, letter j3]) s = .next (s.respond [0x00#8, ctrl]) →
      j0 = k0 ∧ j1 = k1 ∧ j2 = k2 ∧ j3 = k3) ∧
  (∀ (txt txt' : Packet) (s : State), txt.map foldCase = txt'.map foldCase → exec (.parse txt) s = exec (.parse txt') s) ∧
  (∀ s : State, ∃ x y : Byte, x ≠ y ∧
    exec (.parse [0x54#8, 0x4C#8, 0x48#8, 0x50#8]) s = .next (s.respond [0x00#8, x]) ∧
    exec (.parse [0x50#8, 0x48#8, 0x4C#8, 0x54#8]) s = .next (s.respond [0x00#8, y]))

/-- R54, R69, for the table's row CTRLBYTE: a control byte is read as its four slots, and running the row answers the byte
whose slots they are. That the row runs so is the model's choice (log entry 5). -/
def Obligations.ControlByteRow : Prop :=
  ∀ (s0 s1 s2 s3 : Slot) (s : State),
    decode (.fmtC (BitVec.ofNat 8 (64 * s0.toNat + 16 * s1.toNat + 4 * s2.toNat + s3.toNat))) =
      .ok (.ctrlByte s0 s1 s2 s3) ∧
    exec (.ctrlByte s0 s1 s2 s3) s =
      .next (s.respond [0x00#8, BitVec.ofNat 8 (64 * s0.toNat + 16 * s1.toNat + 4 * s2.toNat + s3.toNat)])

/-! ## The frame serializer/deserializer -/

/-- R53, R85, R86: ENCODE raises BadOperand, then KeyNotLoaded; else it answers the frame of the padded payload. -/
def Obligations.EncodeResult : Prop :=
  ∀ (ft id n : Byte) (pl : Packet) (s : State),
    ((ft.toNat > 1 ∨ pl.length > 8) → exec (.encode ft id n pl) s = .next (s.respond [0x12#8])) ∧
    (ft.toNat ≤ 1 → pl.length ≤ 8 → s.keyValid = false →
      exec (.encode ft id n pl) s = .next (s.respond [0x10#8])) ∧
    (ft.toNat ≤ 1 → pl.length ≤ 8 → s.keyValid = true →
      ∃ (t : Byte) (pt : Block8),
        t = (if ft = 0x00#8 then Config.chip.tagMeasure else tagControl Config.chip) ∧
        isPadded Config.chip pl pt ∧
        exec (.encode ft id n pl) s =
          .next (s.respond
            ([0x00#8, t, id, n] ++ List.ofFn (fun i : Fin 8 => pt[i] ^^^ (Config.chip.ks s.key t id n)[i]) ++
              [Config.chip.tag s.key t id n pt])))

/-- R87, R88, R89: DECODE of any buffer ends with exactly one of its outcomes, tested in the order BadLength, UnknownType,
KeyNotLoaded, AuthFailed. -/
def Obligations.DecodeResult : Prop :=
  ∀ (buf : Packet) (s : State),
    (buf.length ≠ 12 → exec (.decode buf) s = .next (s.respond [0x01#8])) ∧
    (buf.length = 12 →
      ∃ (t id n g : Byte) (ct pt : Block8),
        buf = [t, id, n] ++ ct.toList ++ [g] ∧
        (∀ i : Fin 8, pt[i] = ct[i] ^^^ (Config.chip.ks s.key t id n)[i]) ∧
        exec (.decode buf) s =
          .next (s.respond
            (if t ≠ Config.chip.tagMeasure ∧ t ≠ tagControl Config.chip then [0x02#8]
            else if s.keyValid = false then [0x10#8]
            else if Config.chip.tag s.key t id n pt ≠ g then [0x03#8]
            else if t = Config.chip.tagMeasure then [0x00#8, 0x00#8, id] ++ pt.toList
            else [0x00#8, 0x01#8, id, pt[0]])))

/-- R91, R92 with the steps of R87, for the table's rows FRAME.MEASURE and FRAME.CONTROL: a frame is opened as DECODE opens
it. That the rows run so is the model's choice (log entry 4). -/
def Obligations.FrameRows : Prop :=
  ∀ (id n g : Byte) (ct : Block8) (s : State),
    (s.keyValid = false →
      exec (.frameMeasure id n ct g) s = .next (s.respond [0x10#8]) ∧
      exec (.frameControl id n ct g) s = .next (s.respond [0x10#8])) ∧
    (s.keyValid = true →
      (∃ pt : Block8,
        (∀ i : Fin 8, pt[i] = ct[i] ^^^ (Config.chip.ks s.key Config.chip.tagMeasure id n)[i]) ∧
        (Config.chip.tag s.key Config.chip.tagMeasure id n pt = g →
          exec (.frameMeasure id n ct g) s = .next (s.respond ([0x00#8, 0x00#8, id] ++ pt.toList))) ∧
        (Config.chip.tag s.key Config.chip.tagMeasure id n pt ≠ g →
          exec (.frameMeasure id n ct g) s = .next (s.respond [0x03#8]))) ∧
      (∃ pt : Block8,
        (∀ i : Fin 8, pt[i] = ct[i] ^^^ (Config.chip.ks s.key (tagControl Config.chip) id n)[i]) ∧
        (Config.chip.tag s.key (tagControl Config.chip) id n pt = g →
          exec (.frameControl id n ct g) s = .next (s.respond [0x00#8, 0x01#8, id, pt[0]])) ∧
        (Config.chip.tag s.key (tagControl Config.chip) id n pt ≠ g →
          exec (.frameControl id n ct g) s = .next (s.respond [0x03#8]))))

/-- The received buffer given at the level of operations (log entry 4) is treated exactly as the DECODE packet that carries
it; a buffer too long for a packet is BadLength (D24). -/
def Obligations.BufferAgreesWithDecodePacket : Prop :=
  ∀ (s : State) (buf : Packet) (rest : List HostInput),
    (buf.length ≤ 255 →
      step (s.withInbox (.command (.fmtF buf) :: rest)) =
        step (s.withInbox (.command (.fmtP ([0x11#8, BitVec.ofNat 8 buf.length] ++ buf)) :: rest))) ∧
    (buf.length > 255 →
      step (s.withInbox (.command (.fmtF buf) :: rest)) = .next ((s.withInbox rest).respond [0x01#8]))

/-- R93: the laws of the SERDES. (a) A frame built under a key decodes under the same key, on this or another block, to the
same type, the same id and the padded payload. (b) The length gate. (c) The form of every frame. (d) Nothing of KEY,
KEY_VALID and SEQ changes. -/
def Obligations.SerdesLaws : Prop :=
  (∀ (s s' : State) (ft id n : Byte) (pl : Packet),
    s.keyValid = true → s'.keyValid = true → s'.key = s.key → ft.toNat ≤ 1 → pl.length ≤ 8 →
    ∃ (frame : Packet) (pt : Block8),
      isPadded Config.chip pl pt ∧
      exec (.encode ft id n pl) s = .next (s.respond (0x00#8 :: frame)) ∧
      exec (.decode frame) s' =
        .next (s'.respond
          (if ft = 0x00#8 then [0x00#8, 0x00#8, id] ++ pt.toList else [0x00#8, 0x01#8, id, pt[0]])) ∧
      frame.length = 12 ∧ (frame[0]? = some Config.chip.tagMeasure ∨ frame[0]? = some (tagControl Config.chip)) ∧
      frame[1]? = some id ∧ frame[2]? = some n) ∧
  (∀ (buf : Packet) (s : State), buf.length ≠ 12 → exec (.decode buf) s = .next (s.respond [0x01#8])) ∧
  (∀ (ft id n : Byte) (pl buf : Packet) (s t : State),
    (exec (.encode ft id n pl) s = .next t ∨ exec (.decode buf) s = .next t) → sameTriple s t)

/-- R87, "without attempting the keyed transform": on a buffer of another length or with another byte 0 the outcome of
DECODE does not depend on KS, TAG, PAD, KIND_CODE, or whether and which key is loaded. -/
def Obligations.GatesNeedNoKeyedTransform : Prop :=
  ∀ (c c' : Config) (key key' : Option Key) (buf : Packet),
    c'.tagMeasure = c.tagMeasure → c'.tagGap = c.tagGap →
    (buf.length ≠ 12 → decodeOp c key buf = .error .badLength ∧ decodeOp c' key' buf = .error .badLength) ∧
    (buf.length = 12 → buf[0]? ≠ some c.tagMeasure → buf[0]? ≠ some (tagControl c) →
      decodeOp c key buf = .error .unknownType ∧ decodeOp c' key' buf = .error .unknownType)

/-- R51: the payload of a Measurement, its 16-bit fields big-endian and the first signed, and the Measurement read back;
every 16-bit pattern is legal in every field. The signed field is two's complement (log entry 11). -/
def Obligations.MeasurementFields : Prop :=
  (∀ m : Measurement, m.inRange = true →
    ∃ pt : Block8, pt.toList = measurementPayload m ∧
      ((pt[0].toNat * 256 + pt[1].toNat : Nat) : Int) = m.temperatureCenti % 65536 ∧
      pt[2].toNat * 256 + pt[3].toNat = m.humidityCenti ∧ pt[4].toNat * 256 + pt[5].toNat = m.pressureDecihpa ∧
      pt[6].toNat * 256 + pt[7].toNat = m.lux ∧ measurementOf pt = m) ∧
  (∀ pt : Block8, (measurementOf pt).inRange = true ∧ measurementPayload (measurementOf pt) = pt.toList)

/-- R91 over two blocks: a Measurement that one block encodes under any id and nonce is the Measurement another block with
the same key decodes, through the command port and through the row FRAME.MEASURE alike (log entries 4 and 11). -/
def Obligations.MeasurementEndToEnd : Prop :=
  ∀ (s s' : State) (id n : Byte) (m : Measurement),
    s.keyValid = true → s'.keyValid = true → s'.key = s.key → m.inRange = true →
    ∃ (frame : Packet) (pt : Block8) (ct : Block8) (g : Byte),
      exec (encodeM id n m) s = .next (s.respond (0x00#8 :: frame)) ∧
      exec (.decode frame) s' = .next (s'.respond ([0x00#8, 0x00#8, id] ++ pt.toList)) ∧
      decode (.fmtF frame) = .ok (.frameMeasure id n ct g) ∧
      exec (.frameMeasure id n ct g) s' = .next (s'.respond ([0x00#8, 0x00#8, id] ++ pt.toList)) ∧
      measurementOf pt = m

/-! ## The cipher and MAC units -/

/-- R75, R76: the combination works byte by byte, and applied twice with one keystream it gives the data back. -/
def Obligations.XorReversible : Prop :=
  ∀ x ks : Block8, (∀ i : Fin 8, (xor8 x ks)[i] = x[i] ^^^ ks[i]) ∧ xor8 (xor8 x ks) ks = x

/-- R78: two frames of one type, id and nonce under one key have the same keystream, so the exclusive or of their
ciphertexts is that of their plaintexts. -/
def Obligations.KeystreamReuse : Prop :=
  ∀ (s s' : State) (ft id n : Byte) (pl pl' : Packet),
    s.keyValid = true → s'.keyValid = true → s'.key = s.key → ft.toNat ≤ 1 → pl.length ≤ 8 → pl'.length ≤ 8 →
    ∃ (t g g' : Byte) (ct ct' pt pt' : Block8),
      isPadded Config.chip pl pt ∧ isPadded Config.chip pl' pt' ∧
      exec (.encode ft id n pl) s = .next (s.respond ([0x00#8, t, id, n] ++ ct.toList ++ [g])) ∧
      exec (.encode ft id n pl') s' = .next (s'.respond ([0x00#8, t, id, n] ++ ct'.toList ++ [g'])) ∧
      ∀ i : Fin 8, ct[i] ^^^ ct'[i] = pt[i] ^^^ pt'[i]

/-- R83, "for every header and payload there is exactly one tag byte that passes". -/
def Obligations.ExactlyOneTagPasses : Prop :=
  ∀ (s : State) (t id n : Byte) (ct : Block8),
    s.keyValid = true → (t = Config.chip.tagMeasure ∨ t = tagControl Config.chip) →
    ∃ g : Byte, (∃ res, exec (.decode ([t, id, n] ++ ct.toList ++ [g])) s = .next (s.respond (0x00#8 :: res))) ∧
      ∀ g' : Byte, g' ≠ g → exec (.decode ([t, id, n] ++ ct.toList ++ [g'])) s = .next (s.respond [0x03#8])

/-- R12, R83, R128: under the named property TagBound (log entry 9) at most one payload in 256, up to `slack`, of those with
one header and one received tag is accepted. -/
def Obligations.TagBoundLimitsAcceptance : Prop :=
  ∀ (c : Config) (slack : Nat) (k : Key) (ty : FrameType) (id n g : Byte) (cts : List Block8),
    TagBound c slack → cts.Nodup →
    (∀ ct ∈ cts, ∃ res, decodeOp c (some k) ([tagOf c ty, id, n] ++ ct.toList ++ [g]) = .ok res) →
    cts.length ≤ 2 ^ 56 + slack

/-- R132: two blocks that agree on the type tags, KS, TAG and KEY accept each other's frames whatever their PAD and
KIND_CODE, each reading the payload the other padded; a frame whose type tag is none of the other's is UnknownType. -/
def Obligations.Interoperation : Prop :=
  ∀ (c c' : Config) (k : Key) (ty : FrameType) (id n : Byte) (pl : Packet),
    pl.length ≤ 8 →
    ∃ (frame : Packet) (pt : Block8),
      isPadded c pl pt ∧ encodeOp c (some k) (selectorOf ty) id n pl = .ok frame ∧
      (c'.tagMeasure = c.tagMeasure → c'.tagGap = c.tagGap → c'.ks = c.ks → c'.tag = c.tag →
        decodeOp c' (some k) frame = .ok (frameResult ty id pt)) ∧
      (tagOf c ty ≠ c'.tagMeasure → tagOf c ty ≠ tagControl c' → decodeOp c' (some k) frame = .error .unknownType)

/-! ## The sequencer and the key store -/

/-- R97: CTRLTX raises KeyNotLoaded with SEQ unchanged; else it steps SEQ by one modulo 256 and answers the CONTROL frame
under the new SEQ, the frame ENCODE(1, id, SEQ, [CTRL]) builds. No other instruction steps SEQ. -/
def Obligations.CtrltxResult : Prop :=
  (∀ (i : Instr) (s t : State), (∀ id ctrl, i ≠ .ctrltx id ctrl) → exec i s = .next t → t.seq = s.seq) ∧
  ∀ (id ctrl : Byte) (s : State),
    (s.keyValid = false → exec (.ctrltx id ctrl) s = .next (s.respond [0x10#8])) ∧
    (s.keyValid = true →
      exec (.ctrltx id ctrl) s = exec (.encode 0x01#8 id (s.seq + 1#8) [ctrl]) { s with seq := s.seq + 1#8 } ∧
      ∃ pt : Block8, isPadded Config.chip [ctrl] pt ∧
        exec (.ctrltx id ctrl) s =
          .next { s with
            seq := BitVec.ofNat 8 ((s.seq.toNat + 1) % 256)
            outbox := s.outbox ++
              [[0x00#8, tagControl Config.chip, id, s.seq + 1#8] ++
                List.ofFn (fun i : Fin 8 =>
                  pt[i] ^^^ (Config.chip.ks s.key (tagControl Config.chip) id (s.seq + 1#8))[i]) ++
                [Config.chip.tag s.key (tagControl Config.chip) id (s.seq + 1#8) pt]] })

/-- R99: KEYLD loads the key once; a second KEYLD is KeyLocked and changes nothing. -/
def Obligations.KeyldResult : Prop :=
  ∀ (k : Key) (s : State),
    (s.keyValid = true → exec (.keyld k) s = .next (s.respond [0x11#8])) ∧
    (s.keyValid = false →
      exec (.keyld k) s = .next { s with key := k, keyValid := true, outbox := s.outbox ++ [[0x00#8]] })

/-- R22, R23, R24, R41: the only writes of persistent state by a command are SEQ in CTRLTX with a key loaded, and KEY and
KEY_VALID in KEYLD with none loaded. -/
def Obligations.OnlyWritesOfPersistentState : Prop :=
  ∀ (i : Instr) (s t : State), exec i s = .next t →
    (t.seq = match i with
      | .ctrltx _ _ => if s.keyValid then s.seq + 1#8 else s.seq
      | _ => s.seq) ∧
    (t.key = match i with
      | .keyld k => if s.keyValid then s.key else k
      | _ => s.key) ∧
    (t.keyValid = match i with
      | .keyld _ => true
      | _ => s.keyValid) ∧
    t.inbox = s.inbox ∧ t.resets = s.resets ∧ ∃ r, t.outbox = s.outbox ++ [r]

/-- R43 a, R98: in a run of a keyed block without a reset event, whatever other commands lie between, the k-th CTRLTX answers
the CONTROL frame under the nonce SEQ + k modulo 256, SEQ the value at the run's start (0 after a reset, so k mod 256), with
no failure at the wrap and no change of key; so two CTRLTX to one id that are a multiple of 256 apart have one keystream. -/
def Obligations.NonceSequence : Prop :=
  ∀ s : State, s.keyValid = true → noReset s.inbox = true →
    ∃ (t : State) (rs : List Packet),
      run s.inbox.length s = .next t ∧ t.seq = BitVec.ofNat 8 (s.seq.toNat + countCtrltx s.inbox) ∧
      t.key = s.key ∧ t.keyValid = true ∧ t.inbox = [] ∧ t.outbox = s.outbox ++ rs ∧ rs.length = s.inbox.length ∧
      ∀ (j : Nat) (id ctrl : Byte), s.inbox[j]? = some (.command (.fmtP [0x12#8, id, ctrl])) →
        ∃ (n : Byte) (pt : Block8),
          n = BitVec.ofNat 8 ((s.seq.toNat + countCtrltx (s.inbox.take j) + 1) % 256) ∧
          isPadded Config.chip [ctrl] pt ∧
          rs[j]? = some ([0x00#8, tagControl Config.chip, id, n] ++
            List.ofFn (fun i : Fin 8 => pt[i] ^^^ (Config.chip.ks s.key (tagControl Config.chip) id n)[i]) ++
            [Config.chip.tag s.key (tagControl Config.chip) id n pt])

/-- R22, R23, R99: once a key is loaded, no run without a reset event changes KEY or clears KEY_VALID, whatever the host
presents. -/
def Obligations.KeyLockedOverRuns : Prop :=
  ∀ (n : Nat) (s : State), s.keyValid = true → noReset s.inbox = true →
    ∃ t, run n s = .next t ∧ t.key = s.key ∧ t.keyValid = true

/-- R95 a, R127: DECODE of a buffer answers the same before and after any run without a reset event, so a valid frame stays
valid. -/
def Obligations.ReplayAnswersTheSame : Prop :=
  ∀ (n : Nat) (s : State) (buf : Packet), s.keyValid = true → noReset s.inbox = true →
    ∃ (t : State) (r : Packet), run n s = .next t ∧ exec (.decode buf) s = .next (s.respond r) ∧
      exec (.decode buf) t = .next (t.respond r)

/-! ## Reset -/

/-- R31: SEQ and KEY_VALID at reset, and that no instruction's effect depends on what KEY then holds. The value in the model's
KEY is a free value (log entry 2), and the statement holds for every value of it. -/
def Obligations.ResetState : Prop :=
  State.reset.seq = 0x00#8 ∧ State.reset.keyValid = false ∧
  ∀ (i : Instr) (k : Key) (t : State), exec i State.reset = .next t →
    exec i { State.reset with key := k } = .next { t with key := if t.keyValid then t.key else k }

/-- R119: the reset event sets SEQ to 0 and KEY_VALID to 0 and answers nothing. That it is taken from the queue and leaves the
rest of the queue is the model's reading (log entry 6). -/
def Obligations.ResetEvent : Prop :=
  ∀ (s : State) (rest : List HostInput), s.inbox = .reset :: rest →
    ∃ t, step s = .next t ∧ t.seq = 0x00#8 ∧ t.keyValid = false ∧ t.inbox = rest ∧ t.outbox = s.outbox

/-- What each command does right after a reset, before any KEYLD: derived, as R120 itself is, from R85, R87, R97 and R99. That
the responses given before the reset are kept is the model's choice (log entry 6). -/
def Obligations.OutcomesRightAfterReset : Prop :=
  ∀ s : State,
    s.afterReset.seq = 0x00#8 ∧ s.afterReset.keyValid = false ∧
    (∀ a b c d : Byte, ∃ r, exec (.pack a b c d) s = .next (s.respond r) ∧
      exec (.pack a b c d) s.afterReset = .next (s.afterReset.respond r)) ∧
    (∀ txt : Packet, ∃ r, exec (.parse txt) s = .next (s.respond r) ∧
      exec (.parse txt) s.afterReset = .next (s.afterReset.respond r)) ∧
    (∀ ctrl : Byte, ∃ r, exec (.unpack ctrl) s = .next (s.respond r) ∧
      exec (.unpack ctrl) s.afterReset = .next (s.afterReset.respond r)) ∧
    (∀ k : Key, ∃ t, exec (.keyld k) s.afterReset = .next t ∧ t.outbox = s.outbox ++ [[0x00#8]]) ∧
    (∀ (ft id n : Byte) (pl : Packet), exec (.encode ft id n pl) s.afterReset =
      .next (s.afterReset.respond [if ft.toNat > 1 ∨ pl.length > 8 then 0x12#8 else 0x10#8])) ∧
    (∀ buf : Packet, exec (.decode buf) s.afterReset =
      .next (s.afterReset.respond
        [if buf.length ≠ 12 then 0x01#8
        else if buf[0]? ≠ some Config.chip.tagMeasure ∧ buf[0]? ≠ some (tagControl Config.chip) then 0x02#8
        else 0x10#8])) ∧
    (∀ id ctrl : Byte, exec (.ctrltx id ctrl) s.afterReset = .next (s.afterReset.respond [0x10#8]))

/-- R119 ("no state that survives reset"), R125: two blocks that are reset and then given the same commands answer the same,
whatever they held before; in particular the nonces and keystreams of CTRLTX repeat. That the commands waiting behind the
reset event are kept and run after it is the model's choice (log entries 1 and 6; the spec does not say that they survive). -/
def Obligations.ResetErasesHistory : Prop :=
  ∀ (s s' : State) (cmds : List Encoded),
    s.inbox = .reset :: cmds.map .command → s'.inbox = .reset :: cmds.map .command →
    ∃ (t t' : State) (rs : List Packet),
      run (cmds.length + 1) s = .next t ∧ run (cmds.length + 1) s' = .next t' ∧
      t.outbox = s.outbox ++ rs ∧ t'.outbox = s'.outbox ++ rs ∧ rs.length = cmds.length ∧ t.seq = t'.seq ∧
      t.keyValid = t'.keyValid

/-! ## The command port -/

/-- R42, R43: when the oldest input presented decodes to an instruction, a step takes it off the queue and is exactly that
instruction; with nothing presented the block does nothing (R4). -/
def Obligations.StepRunsDecodedInstruction : Prop :=
  (∀ (s : State) (e : Encoded) (rest : List HostInput) (i : Instr),
    s.inbox = .command e :: rest → decode e = .ok i → step s = exec i { s with inbox := rest }) ∧
  (∀ s : State, s.inbox = [] → step s = .next s)

/-- The host's reading of the opcode table's words: what `decodeTableWord` reads is what the very next step runs (log
entry 12). -/
def Obligations.TableWordRunsNext : Prop :=
  ∀ (s : State) (nbits w : Nat) (i : Instr), decodeTableWord nbits w = some i →
    step (s.withFetchWord nbits w) = exec i s

/-- R65: an unknown opcode, a wrong length or an empty packet answers BadCommand, an operand out of range answers BadOperand,
and nothing else changes; every other packet is a command. -/
def Obligations.IllegalPackets : Prop :=
  ∀ (s : State) (rest : List HostInput) (cmd : Packet), s.inbox = .command (.fmtP cmd) :: rest →
    (¬lawfulPacket cmd → step s = .next ({ s with inbox := rest }.respond [0x1F#8])) ∧
    (lawfulPacket cmd → ∃ i, decode (.fmtP cmd) = .ok i ∧
      (¬operandsInRange i → step s = .next ({ s with inbox := rest }.respond [0x12#8])))

/-- Derived from R56, R67, R101 and R118: every step goes on, and every command presented gets exactly one response, of a
legal form. That an empty queue leaves the state as it is rests on log entry 1 (with R4), and that a reset event is an input
of the queue, keeps the rest of it and the responses and gets no response on log entry 6: the model's choices. -/
def Obligations.EveryCommandAnswered : Prop :=
  ∀ s : State, ∃ t, step s = .next t ∧
    (s.inbox = [] → t = s) ∧
    (∀ rest, s.inbox = .reset :: rest → t.inbox = rest ∧ t.outbox = s.outbox) ∧
    (∀ e rest, s.inbox = .command e :: rest → t.inbox = rest ∧ ∃ r, legalResponse r = true ∧ t.outbox = s.outbox ++ [r])

/-- R43, R45: a command presented while others wait is neither dropped nor merged and changes nothing of what the block does
with the oldest; and a run of as many steps as inputs empties the queue. The waiting queue is the model's choice (log
entry 1), and so is that a reset event waits in it behind commands and counts as one of its inputs (log entry 6). -/
def Obligations.CommandsInOrder : Prop :=
  (∀ (s t : State) (x : HostInput), s.inbox ≠ [] → step s = .next t → step (s.present x) = .next (t.present x)) ∧
  (∀ s : State, ∃ t, run s.inbox.length s = .next t ∧ t.inbox = [] ∧
    t.outbox.length = s.outbox.length + (s.inbox.filter (fun x => decide (x ≠ .reset))).length)

/-- R104, R105: a command answered with a failure returns the one status byte and leaves everything else as it was. -/
def Obligations.FailureChangesNothing : Prop :=
  ∀ (s t : State) (e : Encoded) (rest : List HostInput),
    s.inbox = .command e :: rest → step s = .next t →
    ∃ r : Packet, t.outbox = s.outbox ++ [r] ∧
      (r.head? ≠ some 0x00#8 → r.length = 1 ∧ t = { s with inbox := rest, outbox := s.outbox ++ [r] })

/-- R103: a host that loads the key first and keeps its operands in range never meets KeyNotLoaded, BadOperand or BadCommand,
and meets KeyLocked only by a second KEYLD. -/
def Obligations.CorrectHostMeetsNoAddedFailure : Prop :=
  ∀ (i : Instr) (s : State), s.keyValid = true → operandsInRange i → i.wf = true → (∀ k, i ≠ .keyld k) →
    decode (encode i) = .ok i ∧
    ∃ (t : State) (st : Byte) (res : Packet), exec i s = .next t ∧ t.outbox = s.outbox ++ [st :: res] ∧
      st ∈ [0x00#8, 0x01#8, 0x02#8, 0x03#8, 0x04#8]

/-- R31: while KEY_VALID is 0 no instruction's effect or response depends on what KEY holds. -/
def Obligations.KeyUnreadBeforeLoad : Prop :=
  ∀ (i : Instr) (s t : State) (k : Key), s.keyValid = false → exec i s = .next t →
    exec i { s with key := k } = .next { t with key := if t.keyValid then t.key else k }

/-- R18, R25, R27: a response and the persistent state after it depend on the operands and on (KEY, KEY_VALID, SEQ) alone,
not on earlier operations or their outcomes. -/
def Obligations.OutcomeIgnoresHistory : Prop :=
  ∀ (i : Instr) (s s' : State), sameTriple s s' →
    ∃ (t t' : State) (r : Packet), exec i s = .next t ∧ exec i s' = .next t' ∧
      t.outbox = s.outbox ++ [r] ∧ t'.outbox = s'.outbox ++ [r] ∧ sameTriple t t'

/-- R66: SETORDER is PARSE, then CTRLTX with the packed order if the PARSE was OK, else nothing more (the
letters in ASCII, log entry 11). -/
def Obligations.SetOrderMacro : Prop :=
  ∀ (id : Byte) (txt : Packet) (s : State),
    (∃ ctrl : Byte, exec (.parse txt) s = .next (s.respond [0x00#8, ctrl]) ∧
      setOrder id txt s = exec (.ctrltx id ctrl) (s.respond [0x00#8, ctrl])) ∨
    (exec (.parse txt) s = .next (s.respond [0x04#8]) ∧ setOrder id txt s = .next (s.respond [0x04#8]))

/-! ## Encoding -/

/-- Decoding an encoded well-formed instruction gives it back, with every operand at every value. -/
def Obligations.DecodeOfEncode : Prop :=
  ∀ i : Instr, i.wf = true → decode (encode i) = .ok i

/-- Each encoded form has one meaning: what decodes is the encoding of what it decodes to, which is well formed. -/
def Obligations.EncodeOfDecode : Prop :=
  ∀ (e : Encoded) (i : Instr), decode e = .ok i → encode i = e ∧ i.wf = true

/-- R57 to R64, on words written out from the spec's encodings (95_test_vectors.md V01, V13, V16, V20, V36, V50, V52, V63). -/
def Obligations.DecodedWords : Prop :=
  decode (.fmtP [0x03#8, 0x04#8, 0x54#8, 0x4C#8, 0x48#8, 0x50#8]) = .ok (.parse [0x54#8, 0x4C#8, 0x48#8, 0x50#8]) ∧
  decode (.fmtP [0x02#8, 0x00#8, 0x02#8, 0x01#8, 0x03#8]) = .ok (.pack 0x00#8 0x02#8 0x01#8 0x03#8) ∧
  decode (.fmtP [0x04#8, 0x27#8]) = .ok (.unpack 0x27#8) ∧
  decode (.fmtP [0x10#8, 0x01#8, 0x07#8, 0x01#8, 0x01#8, 0x27#8]) = .ok (.encode 0x01#8 0x07#8 0x01#8 [0x27#8]) ∧
  decode (.fmtP [0x11#8, 0x00#8]) = .ok (.decode []) ∧
  decode (.fmtP [0x01#8, 0x00#8, 0x01#8, 0x02#8, 0x03#8, 0x04#8, 0x05#8, 0x06#8, 0x07#8, 0x08#8, 0x09#8, 0x0A#8, 0x0B#8,
    0x0C#8, 0x0D#8, 0x0E#8, 0x0F#8]) =
    .ok (.keyld #v[0x00#8, 0x01#8, 0x02#8, 0x03#8, 0x04#8, 0x05#8, 0x06#8, 0x07#8, 0x08#8, 0x09#8, 0x0A#8, 0x0B#8, 0x0C#8,
      0x0D#8, 0x0E#8, 0x0F#8]) ∧
  decode (.fmtP [0x12#8, 0x07#8, 0x27#8]) = .ok (.ctrltx 0x07#8 0x27#8) ∧
  decode (.fmtP [0x12#8, 0x07#8]) = .error .badCommand

/-! ## The invariant -/

/-- Every step keeps the invariant: SEQ stays 0 until a key is loaded, and every response has a form of R58 to R64 and R67. -/
def Obligations.StepKeepsInvariant : Prop :=
  ∀ s t : State, s.inv = true → step s = .next t → t.inv = true

/-- The invariant holds at reset. -/
def Obligations.ResetMeetsInvariant : Prop := State.reset.inv = true
end

