-- ==== Sys2Proof/Laws/State.lean ====
section
/-! SUPPORT. One lemma per field per update of State, each true by rfl. -/

namespace Sys2Proof.Machine

variable (s : State) (k : Key) (r : Packet) (q : List HostInput)

@[simp] theorem installKey_key : (s.installKey k).key = k := rfl
@[simp] theorem installKey_keyValid : (s.installKey k).keyValid = true := rfl
@[simp] theorem installKey_seq : (s.installKey k).seq = s.seq := rfl
@[simp] theorem installKey_inbox : (s.installKey k).inbox = s.inbox := rfl
@[simp] theorem installKey_outbox : (s.installKey k).outbox = s.outbox := rfl
@[simp] theorem installKey_resets : (s.installKey k).resets = s.resets := rfl

@[simp] theorem stepSeq_key : s.stepSeq.key = s.key := rfl
@[simp] theorem stepSeq_keyValid : s.stepSeq.keyValid = s.keyValid := rfl
@[simp] theorem stepSeq_seq : s.stepSeq.seq = s.seq + 1#8 := rfl
@[simp] theorem stepSeq_inbox : s.stepSeq.inbox = s.inbox := rfl
@[simp] theorem stepSeq_outbox : s.stepSeq.outbox = s.outbox := rfl
@[simp] theorem stepSeq_resets : s.stepSeq.resets = s.resets := rfl

@[simp] theorem respond_key : (s.respond r).key = s.key := rfl
@[simp] theorem respond_keyValid : (s.respond r).keyValid = s.keyValid := rfl
@[simp] theorem respond_seq : (s.respond r).seq = s.seq := rfl
@[simp] theorem respond_inbox : (s.respond r).inbox = s.inbox := rfl
@[simp] theorem respond_outbox : (s.respond r).outbox = s.outbox ++ [r] := rfl
@[simp] theorem respond_resets : (s.respond r).resets = s.resets := rfl

@[simp] theorem withInbox_key : (s.withInbox q).key = s.key := rfl
@[simp] theorem withInbox_keyValid : (s.withInbox q).keyValid = s.keyValid := rfl
@[simp] theorem withInbox_seq : (s.withInbox q).seq = s.seq := rfl
@[simp] theorem withInbox_inbox : (s.withInbox q).inbox = q := rfl
@[simp] theorem withInbox_outbox : (s.withInbox q).outbox = s.outbox := rfl
@[simp] theorem withInbox_resets : (s.withInbox q).resets = s.resets := rfl

@[simp] theorem afterReset_key : s.afterReset.key = Config.keyAtReset (s.resets + 1) := rfl
@[simp] theorem afterReset_keyValid : s.afterReset.keyValid = false := rfl
@[simp] theorem afterReset_seq : s.afterReset.seq = 0x00#8 := rfl
@[simp] theorem afterReset_inbox : s.afterReset.inbox = s.inbox := rfl
@[simp] theorem afterReset_outbox : s.afterReset.outbox = s.outbox := rfl
@[simp] theorem afterReset_resets : s.afterReset.resets = s.resets + 1 := rfl

@[simp] theorem reset_keyValid : State.reset.keyValid = false := rfl
@[simp] theorem reset_seq : State.reset.seq = 0x00#8 := rfl
@[simp] theorem reset_inbox : State.reset.inbox = [] := rfl
@[simp] theorem reset_outbox : State.reset.outbox = [] := rfl
@[simp] theorem reset_resets : State.reset.resets = 0 := rfl

@[simp] theorem withInbox_withInbox (q' : List HostInput) : (s.withInbox q).withInbox q' = s.withInbox q' := rfl
@[simp] theorem withInbox_self : s.withInbox s.inbox = s := rfl

@[simp] theorem nextSeq_eq : s.nextSeq = s.seq + 1#8 := rfl

/-! The accessor of the key, over each update. -/

theorem loadedKey_of_valid {s : State} (h : s.keyValid = true) : s.loadedKey = some s.key := by
  simp [State.loadedKey, h]

theorem loadedKey_of_not_valid {s : State} (h : s.keyValid = false) : s.loadedKey = none := by
  simp [State.loadedKey, h]

@[simp] theorem installKey_loadedKey : (s.installKey k).loadedKey = some k := rfl
@[simp] theorem stepSeq_loadedKey : s.stepSeq.loadedKey = s.loadedKey := rfl
@[simp] theorem respond_loadedKey : (s.respond r).loadedKey = s.loadedKey := rfl
@[simp] theorem withInbox_loadedKey : (s.withInbox q).loadedKey = s.loadedKey := rfl
@[simp] theorem afterReset_loadedKey : s.afterReset.loadedKey = none := rfl

end Sys2Proof.Machine
end

