-- ==== Sys2Proof/Laws/Exec.lean ====
section
/-! SUPPORT. What the shared operations and an instruction can do, said once. -/

namespace Sys2Proof.Machine

@[simp] theorem responseOf_ok (p : Packet) : responseOf (.ok p) = statusOk :: p := rfl
@[simp] theorem responseOf_error (f : Failure) : responseOf (.error f) = [failureCode f] := rfl

/-- The end of an operation that writes no persistent state is one response and nothing else. -/
theorem answer_eq (r : Except Failure Packet) (s : State) : answer r s = .next (s.respond (responseOf r)) := by
  cases r <;> rfl

theorem failureCode_ne_statusOk (f : Failure) : failureCode f ≠ statusOk := by cases f <;> decide

/-- The persistent effect of an instruction: KEYLD in an unlocked block installs its key, CTRLTX in a keyed block steps
SEQ, and nothing else writes anything. -/
def effect (i : Instr) (s : State) : State :=
  match i, s.keyValid with
  | .keyld k, false => s.installKey k
  | .ctrltx _ _, true => s.stepSeq
  | _, _ => s

/-- The outcome of an instruction: its result, or its failure reason. -/
def outcome (i : Instr) (s : State) : Except Failure Packet :=
  match i with
  | .keyld _ =>
    match s.keyValid with
    | true => .error .keyLocked
    | false => .ok []
  | .pack a b c d => oneByte (packOp a b c d)
  | .parse txt => oneByte (parseOp Config.chip txt)
  | .unpack ctrl => .ok (unpackOp Config.chip ctrl)
  | .encode ft id n pl => encodeOp Config.chip s.loadedKey ft id n pl
  | .decode rxbuf => decodeOp Config.chip s.loadedKey rxbuf
  | .ctrltx id ctrl =>
    match s.loadedKey with
    | none => .error .keyNotLoaded
    | some k => .ok (sealFrame Config.chip k .control id s.nextSeq (padPayload Config.chip [ctrl]))
  | .frameMeasure id n ct g => openFrame Config.chip s.loadedKey .measure id n ct g
  | .frameControl id n ct g => openFrame Config.chip s.loadedKey .control id n ct g
  | .ctrlByte s0 s1 s2 s3 => oneByte (packOp (slotByte s0) (slotByte s1) (slotByte s2) (slotByte s3))

@[simp] theorem effect_inbox (i : Instr) (s : State) : (effect i s).inbox = s.inbox := by
  unfold effect
  split <;> rfl

@[simp] theorem effect_outbox (i : Instr) (s : State) : (effect i s).outbox = s.outbox := by
  unfold effect
  split <;> rfl

@[simp] theorem effect_resets (i : Instr) (s : State) : (effect i s).resets = s.resets := by
  unfold effect
  split <;> rfl

/-- An instruction never unloads or changes a loaded key. -/
theorem effect_keyed (i : Instr) {s : State} (h : s.keyValid = true) :
    (effect i s).key = s.key ∧ (effect i s).keyValid = true := by
  unfold effect
  split <;> simp_all

/-- Everything an instruction can do: its persistent effect, and one response. -/
theorem exec_eq (i : Instr) (s : State) : exec i s = .next ((effect i s).respond (responseOf (outcome i s))) := by
  cases i with
  | keyld k => cases h : s.keyValid <;> simp [exec, execKeyld, effect, outcome, h, raise, succeed]
  | ctrltx id ctrl =>
    cases h : s.keyValid <;> simp [exec, execCtrltx, ctrltxOp, effect, outcome, State.loadedKey, h, raise, succeed]
  | unpack ctrl => rfl
  | _ => exact answer_eq _ _

/-- Everything a step can do: idle, take a reset event, answer a rejected command, or run a decoded one. -/
theorem step_cases (s : State) :
    (s.inbox = [] ∧ step s = .next s) ∨
    (∃ rest, s.inbox = .reset :: rest ∧ step s = .next (s.withInbox rest).afterReset) ∨
    (∃ e rest f, s.inbox = .command e :: rest ∧ decode e = .error f ∧
      step s = .next ((s.withInbox rest).respond [failureCode f])) ∨
    (∃ e rest i, s.inbox = .command e :: rest ∧ decode e = .ok i ∧ step s = exec i (s.withInbox rest)) := by
  unfold step
  cases hq : s.inbox with
  | nil => exact .inl ⟨rfl, rfl⟩
  | cons x rest =>
    cases x with
    | reset => exact .inr (.inl ⟨rest, rfl, rfl⟩)
    | command e =>
      cases hd : decode e with
      | ok i => exact .inr (.inr (.inr ⟨e, rest, i, rfl, hd, by simp [acceptInput, hd]⟩))
      | error f => exact .inr (.inr (.inl ⟨e, rest, f, rfl, hd, by simp [acceptInput, hd, raise]⟩))

/-! ## The invariant -/

theorem inv_iff (s : State) :
    s.inv = true ↔ (s.keyValid = false → s.seq = 0x00#8) ∧ ∀ r ∈ s.outbox, legalResponse r = true := by
  cases h : s.keyValid <;> simp [State.inv, h]

/-- An unkeyed block keeps SEQ. -/
theorem effect_unkeyed (i : Instr) {s : State} (h : (effect i s).keyValid = false) :
    s.keyValid = false ∧ (effect i s).seq = s.seq := by
  unfold effect at h ⊢
  split at h <;> simp_all

theorem legalResponse_failure (f : Failure) : legalResponse [failureCode f] = true := by cases f <;> rfl

/-! ## Runs -/

theorem run_zero (s : State) : run 0 s = .next s := rfl

/-- A run whose first step goes on is the run from there. -/
theorem run_of_step {n : Nat} {s t : State} (h : step s = .next t) : run (n + 1) s = run n t := by
  simp only [run, Host.Core.run]
  rw [show Sys2Proof.core.step s = .next t from h]

end Sys2Proof.Machine
end

