-- ==== Sys2Proof/Laws/Operands.lean ====
section
/-! SUPPORT. The laws of the operand forms: what each helper does, said once. -/

namespace Sys2Proof.Machine

/-! ## Type tags (R8, R50) -/

theorem tagMeasure_ne_tagControl (c : Config) : c.tagMeasure ≠ tagControl c := by
  have h := c.tagGap.isLt
  unfold tagControl
  intro e
  have e' := congrArg BitVec.toNat e
  simp only [BitVec.toNat_add, BitVec.toNat_ofNat] at e'
  have := c.tagMeasure.isLt
  omega

@[simp] theorem typeOfTag_tagOf (c : Config) (ty : FrameType) : typeOfTag c (tagOf c ty) = some ty := by
  cases ty
  · simp [typeOfTag, tagOf]
  · simp [typeOfTag, tagOf, (tagMeasure_ne_tagControl c).symm]

theorem typeOfTag_eq_some {c : Config} {t : Byte} {ty : FrameType} (h : typeOfTag c t = some ty) : t = tagOf c ty := by
  unfold typeOfTag at h
  split at h
  · simp_all [← Option.some.inj h, tagOf]
  · split at h
    · simp_all [← Option.some.inj h, tagOf]
    · cases h

theorem typeOfTag_eq_none {c : Config} {t : Byte} :
    typeOfTag c t = none ↔ t ≠ c.tagMeasure ∧ t ≠ tagControl c := by
  unfold typeOfTag
  split
  · simp_all
  · split <;> simp_all

@[simp] theorem typeOfSelector_selectorOf (ty : FrameType) : typeOfSelector (selectorOf ty) = some ty := by
  cases ty <;> rfl

theorem typeOfSelector_eq_none {ft : Byte} : typeOfSelector ft = none ↔ ft.toNat > 1 := by
  revert ft
  decide

/-- Every pair of different type tags is that of some configuration (log entry 3). -/
theorem tagGap_covers (a b : Byte) (h : a ≠ b) : ∃ gap : Fin 255, a + 1#8 + BitVec.ofNat 8 gap.val = b := by
  have ha := a.isLt
  have hb := b.isLt
  have hne : a.toNat ≠ b.toNat := fun e => h (BitVec.eq_of_toNat_eq e)
  refine ⟨⟨(b.toNat + 255 - a.toNat) % 256, by omega⟩, ?_⟩
  apply BitVec.eq_of_toNat_eq
  simp only [BitVec.toNat_add, BitVec.toNat_ofNat]
  omega

/-! ## Kinds and codes (R9, R68) -/

@[simp] theorem kindAtIndex_kindIndex (k : SensorKind) : kindAtIndex (kindIndex k) = k := by cases k <;> rfl

@[simp] theorem kindIndex_kindAtIndex (i : Slot) : kindIndex (kindAtIndex i) = i := by
  revert i
  decide

@[simp] theorem kindOf_kindCode (c : Config) (k : SensorKind) : kindOf c (kindCode c k) = k := by
  simp [kindOf, kindCode]

@[simp] theorem kindCode_kindOf (c : Config) (s : Slot) : kindCode c (kindOf c s) = s := by
  simp [kindOf, kindCode]

theorem kindIndex_bijective : Function.Bijective kindIndex :=
  ⟨fun _ _ h => by simpa using congrArg kindAtIndex h, fun i => ⟨kindAtIndex i, kindIndex_kindAtIndex i⟩⟩

/-- Every bijection of kinds and codes is KIND_CODE of some configuration (log entry 3). -/
theorem kindPerm_covers (f : SensorKind → Slot) (h : Function.Bijective f) :
    ∃ p : Equiv.Perm Slot, ∀ k, p (kindIndex k) = f k :=
  ⟨(Equiv.ofBijective kindIndex kindIndex_bijective).symm.trans (Equiv.ofBijective f h), fun k => by
    simp only [Equiv.trans_apply, Equiv.ofBijective_apply]
    exact congrArg f ((Equiv.ofBijective kindIndex kindIndex_bijective).symm_apply_apply k)⟩

@[simp] theorem kindOfChar_letter (k : SensorKind) : kindOfChar (letter k) = some k := by cases k <;> rfl

/-! ## Slots (R38, R54) -/

theorem slot0_packCodes (a b c d : Slot) :
    slot0 (packCodes (slotByte a) (slotByte b) (slotByte c) (slotByte d)) = a := by
  revert a b c d
  decide

theorem slot1_packCodes (a b c d : Slot) :
    slot1 (packCodes (slotByte a) (slotByte b) (slotByte c) (slotByte d)) = b := by
  revert a b c d
  decide

theorem slot2_packCodes (a b c d : Slot) :
    slot2 (packCodes (slotByte a) (slotByte b) (slotByte c) (slotByte d)) = c := by
  revert a b c d
  decide

theorem slot3_packCodes (a b c d : Slot) :
    slot3 (packCodes (slotByte a) (slotByte b) (slotByte c) (slotByte d)) = d := by
  revert a b c d
  decide

theorem packCodes_slots (x : Byte) :
    packCodes (slotByte (slot0 x)) (slotByte (slot1 x)) (slotByte (slot2 x)) (slotByte (slot3 x)) = x := by
  revert x
  decide

theorem slotByte_le (a : Slot) : slotByte a ≤ 3#8 := by
  revert a
  decide

/-! ## Payloads (R53, R75) -/

@[simp] theorem xor8_getElem (x ks : Block8) (i : Nat) (h : i < 8) : (xor8 x ks)[i] = x[i] ^^^ ks[i] := by
  simp [xor8]

@[simp] theorem padPayload_getElem (c : Config) (pl : Packet) (i : Nat) (h : i < 8) :
    (padPayload c pl)[i] = padByte c pl ⟨i, h⟩ := by
  simp [padPayload]

/-- The padding function meets the three cases of R53. -/
theorem padPayload_isPadded (c : Config) (pl : Packet) : isPadded c pl (padPayload c pl) := by
  refine ⟨fun i b h => by simp [padByte, h], fun h => by simp [padByte, h], fun j h => ?_⟩
  have hn : pl[j.val + 1]? = none := by simpa using h
  simp [padByte, hn, j.isLt]

/-! ## 16-bit fields (R16, R37) -/

/-- The two bytes of be16, the more significant first, stand for the pattern. -/
theorem be16_eq (v : Half) : ∃ hi lo : Byte, be16 v = [hi, lo] ∧ ube16 hi lo = v.toNat := by
  refine ⟨_, _, rfl, ?_⟩
  have h := v.isLt
  simp only [ube16, BitVec.extractLsb'_toNat, Nat.shiftRight_eq_div_pow]
  omega

theorem ube16_lt (hi lo : Byte) : ube16 hi lo < 65536 := by
  have h1 := hi.isLt
  have h2 := lo.isLt
  unfold ube16
  omega

/-- Two bytes read as a field and written again are the same two bytes. -/
theorem be16_ube16 (hi lo : Byte) : be16 (BitVec.ofNat 16 (ube16 hi lo)) = [hi, lo] := by
  have h1 := hi.isLt
  have h2 := lo.isLt
  unfold be16 ube16
  congr 1
  · apply BitVec.eq_of_toNat_eq
    simp only [BitVec.extractLsb'_toNat, BitVec.toNat_ofNat, Nat.shiftRight_eq_div_pow]
    omega
  · congr 1
    apply BitVec.eq_of_toNat_eq
    simp only [BitVec.extractLsb'_toNat, BitVec.toNat_ofNat, Nat.shiftRight_eq_div_pow]
    omega

/-- The signed reading of a pattern, written as a pattern again, is the pattern. -/
theorem ofInt_sext16 {v : Nat} (h : v < 65536) : BitVec.ofInt 16 (sext16 v) = BitVec.ofNat 16 v := by
  apply BitVec.eq_of_toNat_eq
  rw [BitVec.toNat_ofInt]
  simp only [BitVec.toNat_ofNat, sext16]
  split <;> omega

/-! ## Frames (R35, R86, R88) -/

theorem block8_eq_literal (v : Block8) : v = #v[v[0], v[1], v[2], v[3], v[4], v[5], v[6], v[7]] := by
  ext i hi
  interval_cases i <;> rfl

theorem block8_toList (v : Block8) : v.toList = [v[0], v[1], v[2], v[3], v[4], v[5], v[6], v[7]] := by
  conv_lhs => rw [block8_eq_literal v]
  rfl

@[simp] theorem splitFrame_buildFrame (f : FrameParts) : splitFrame (buildFrame f) = some f := by
  obtain ⟨t, id, n, ct, g⟩ := f
  simp [buildFrame, splitFrame, block8_toList, ← block8_eq_literal]

theorem splitFrame_eq_none {b : Packet} : splitFrame b = none ↔ b.length ≠ 12 := by
  unfold splitFrame
  split
  · simp
  · rename_i h
    simp only [true_iff]
    intro hl
    match b, hl with
    | [_, _, _, _, _, _, _, _, _, _, _, _], _ => exact h _ _ _ _ _ _ _ _ _ _ _ _ rfl

theorem buildFrame_splitFrame {b : Packet} {f : FrameParts} (h : splitFrame b = some f) : buildFrame f = b := by
  unfold splitFrame at h
  split at h
  · simp [← Option.some.inj h, buildFrame]
  · cases h

@[simp] theorem buildFrame_length (f : FrameParts) : (buildFrame f).length = 12 := by simp [buildFrame]

/-! ## Opcodes (R57) -/

@[simp] theorem opcodeOf_opcodeByte (op : Opcode) : opcodeOf (opcodeByte op) = some op := by cases op <;> rfl

theorem opcodeOf_eq_some {b : Byte} {op : Opcode} (h : opcodeOf b = some op) : b = opcodeByte op := by
  revert b op
  decide

end Sys2Proof.Machine
end

