-- ==== Sys2Proof/Laws/PerInstr.lean ====
section
/-! SUPPORT. The families of statements made per instruction.

EncodedForm: the encoded form of a well-formed instruction has the length its format gives it: a packet of R57, a frame of
12 bytes, or a control byte. -/

namespace Sys2Proof.Laws.EncodedForm

open Sys2Proof.Machine

/-- The form of an instruction's encoding (R48, R49, R57). -/
def Statement (i : Instr) : Prop :=
  i.wf = true →
    match Sys2Proof.encode i with
    | .fmtP cmd => lawfulPacket cmd
    | .fmtF buf => buf.length = 12
    | .fmtC _ => True

/-- A length byte stands for the length of what follows it. -/
theorem length_byte {b : Packet} (h : b.length ≤ 255) : (BitVec.ofNat 8 b.length).toNat = b.length := by
  simp only [BitVec.toNat_ofNat]
  omega

theorem keyld (k : Key) : Statement (.keyld k) := fun _ => .inl ⟨rfl, by simp⟩

theorem pack (a b c d : Byte) : Statement (.pack a b c d) := fun _ => .inr (.inl ⟨rfl, rfl⟩)

theorem parse (txt : Packet) : Statement (.parse txt) := fun h =>
  .inr (.inr (.inl ⟨rfl, BitVec.ofNat 8 txt.length, rfl, by
    rw [length_byte (of_decide_eq_true h)]
    simp [lengthPrefixed]
    omega⟩))

theorem unpack (ctrl : Byte) : Statement (.unpack ctrl) := fun _ => .inr (.inr (.inr (.inl ⟨rfl, rfl⟩)))

theorem encode (ft id n : Byte) (pl : Packet) : Statement (.encode ft id n pl) := fun h =>
  .inr (.inr (.inr (.inr (.inl ⟨rfl, BitVec.ofNat 8 pl.length, rfl, by
    rw [length_byte (of_decide_eq_true h)]
    simp [lengthPrefixed]
    omega⟩))))

theorem decode (rxbuf : Packet) : Statement (.decode rxbuf) := fun h =>
  .inr (.inr (.inr (.inr (.inr (.inl ⟨rfl, BitVec.ofNat 8 rxbuf.length, rfl, by
    rw [length_byte (of_decide_eq_true h)]
    simp [lengthPrefixed]
    omega⟩)))))

theorem ctrltx (id ctrl : Byte) : Statement (.ctrltx id ctrl) := fun _ =>
  .inr (.inr (.inr (.inr (.inr (.inr ⟨rfl, rfl⟩)))))

theorem frameMeasure (id n : Byte) (ct : Block8) (g : Byte) : Statement (.frameMeasure id n ct g) := fun _ => by
  simp [Sys2Proof.encode, buildFrame]

theorem frameControl (id n : Byte) (ct : Block8) (g : Byte) : Statement (.frameControl id n ct g) := fun _ => by
  simp [Sys2Proof.encode, buildFrame]

theorem ctrlByte (s0 s1 s2 s3 : Slot) : Statement (.ctrlByte s0 s1 s2 s3) := fun _ => trivial

end Sys2Proof.Laws.EncodedForm
end

