-- ==== Sys2Proof/Tests/Slice0.lean ====
section
/-! SUPPORT. The model's own tests. Expected values are the vectors of spec/95_test_vectors.md (V..), which hold under the
reference configuration CFG_REF and its toy functions (D21), or the tables of spec/30_encoding.md. Then one witness for the
hypotheses of each statement that has some. -/

namespace Sys2Proof.Tests

open Sys2Proof Sys2Proof.Machine

/-! ## CFG_REF (R13, 95_test_vectors.md section 2), a test stub -/

/-- TOY_KS. -/
def toyKs (k : Key) (t id n : Byte) : Block8 :=
  Vector.ofFn fun i : Fin 8 =>
    k[i.val] ^^^ k[8 + i.val] ^^^ BitVec.ofNat 8 (t.toNat + 3 * id.toNat + 5 * n.toNat + 7 * i.val)

/-- TOY_TAG. -/
def toyTag (k : Key) (t id n : Byte) (p : Block8) : Byte :=
  BitVec.ofNat 8
    ((k.toList.map BitVec.toNat).sum + t.toNat + 3 * id.toNat + 5 * n.toNat +
      ((List.range 8).zipWith (fun i b => (2 * i + 1) * b) (p.toList.map BitVec.toNat)).sum)

/-- CFG_REF. -/
def cfgRef : Config :=
  { tagMeasure := 0x01#8, tagGap := 0, kindPerm := Equiv.refl _, pad := Vector.replicate 7 0x00#8, ks := toyKs, tag := toyTag }

/-- K_TEST. -/
def kTest : Key :=
  #v[0x00#8, 0x01#8, 0x02#8, 0x03#8, 0x04#8, 0x05#8, 0x06#8, 0x07#8, 0x08#8, 0x09#8, 0x0A#8, 0x0B#8, 0x0C#8, 0x0D#8, 0x0E#8,
    0x0F#8]

/-- A block with K_TEST loaded and a given SEQ. -/
def keyed (seq : Byte) : State :=
  { key := kTest, keyValid := true, seq := seq, inbox := [], outbox := [], resets := 0 }

/-- The last response after a step that goes on. -/
def lastResponse (o : StepOutcome) : Option Packet :=
  match o with
  | .next s => s.outbox.getLast?
  | .fault _ => none
  | .refused _ => none

/-- SEQ after a step that goes on. -/
def seqAfter (o : StepOutcome) : Option Byte :=
  match o with
  | .next s => some s.seq
  | .fault _ => none
  | .refused _ => none

/-- V30's buffer. -/
def v30 : Packet :=
  [0x01#8, 0x09#8, 0x2A#8, 0x18#8, 0xFD#8, 0xE5#8, 0x9F#8, 0x25#8, 0x94#8, 0x10#8, 0x6F#8, 0x3B#8]

/-! ## Well-formedness: an ill-formed term for each check -/

theorem test_wf_parse_too_long : (Instr.parse (List.replicate 256 0x54#8)).wf = false := by
  simp only [Instr.wf, List.length_replicate]; decide
theorem test_wf_parse_longest : (Instr.parse (List.replicate 255 0x54#8)).wf = true := by
  simp only [Instr.wf, List.length_replicate]; decide
theorem test_wf_encode_too_long : (Instr.encode 0x00#8 0x00#8 0x00#8 (List.replicate 256 0x00#8)).wf = false := by
  simp only [Instr.wf, List.length_replicate]; decide
theorem test_wf_decode_too_long : (Instr.decode (List.replicate 256 0x00#8)).wf = false := by
  simp only [Instr.wf, List.length_replicate]; decide
theorem test_range_temperature_low : (Measurement.mk (-32769) 0 0 0).inRange = false := by decide
theorem test_range_temperature_high : (Measurement.mk 32768 0 0 0).inRange = false := by decide
theorem test_range_humidity : (Measurement.mk 0 65536 0 0).inRange = false := by decide
theorem test_range_pressure : (Measurement.mk 0 0 65536 0).inRange = false := by decide
theorem test_range_lux : (Measurement.mk 0 0 0 65536).inRange = false := by decide

/-! ## Decoding: words written out from R58 to R64, R49 and R54 -/

theorem test_decode_keyld :
    decode (.fmtP [0x01#8, 0x00#8, 0x01#8, 0x02#8, 0x03#8, 0x04#8, 0x05#8, 0x06#8, 0x07#8, 0x08#8, 0x09#8, 0x0A#8, 0x0B#8,
      0x0C#8, 0x0D#8, 0x0E#8, 0x0F#8]) = .ok (.keyld kTest) := by decide
theorem test_decode_pack :
    decode (.fmtP [0x02#8, 0x00#8, 0x02#8, 0x01#8, 0x03#8]) = .ok (.pack 0x00#8 0x02#8 0x01#8 0x03#8) := by decide
theorem test_decode_parse :
    decode (.fmtP [0x03#8, 0x03#8, 0x54#8, 0x4C#8, 0x48#8]) = .ok (.parse [0x54#8, 0x4C#8, 0x48#8]) := by decide
theorem test_decode_unpack : decode (.fmtP [0x04#8, 0x27#8]) = .ok (.unpack 0x27#8) := by decide
theorem test_decode_encode :
    decode (.fmtP [0x10#8, 0x00#8, 0x09#8, 0x2A#8, 0x03#8, 0xAA#8, 0xBB#8, 0xCC#8]) =
      .ok (.encode 0x00#8 0x09#8 0x2A#8 [0xAA#8, 0xBB#8, 0xCC#8]) := by decide
theorem test_decode_decode : decode (.fmtP ([0x11#8, 0x0C#8] ++ v30)) = .ok (.decode v30) := by decide
theorem test_decode_ctrltx : decode (.fmtP [0x12#8, 0x07#8, 0x27#8]) = .ok (.ctrltx 0x07#8 0x27#8) := by decide
/-- 0x27 is 00 10 01 11: slots 0, 2, 1, 3. -/
theorem test_decode_ctrlByte : decode (.fmtC 0x27#8) = .ok (.ctrlByte 0#2 2#2 1#2 3#2) := by decide
/-- V30's buffer under CFG_REF: a MEASURE frame. -/
theorem test_decode_frameMeasure :
    decodeFrame cfgRef v30 =
      .ok (.frameMeasure 0x09#8 0x2A#8 #v[0x18#8, 0xFD#8, 0xE5#8, 0x9F#8, 0x25#8, 0x94#8, 0x10#8, 0x6F#8] 0x3B#8) := by decide
/-- V31's buffer under CFG_REF: a CONTROL frame. -/
theorem test_decode_frameControl :
    decodeFrame cfgRef [0x02#8, 0x07#8, 0x01#8, 0x33#8, 0x2B#8, 0x22#8, 0x39#8, 0x30#8, 0x37#8, 0x4E#8, 0x45#8, 0xBB#8] =
      .ok (.frameControl 0x07#8 0x01#8 #v[0x33#8, 0x2B#8, 0x22#8, 0x39#8, 0x30#8, 0x37#8, 0x4E#8, 0x45#8] 0xBB#8) := by decide
/-- V37: byte 0 is no type tag. -/
theorem test_decode_frame_unknown : decodeFrame cfgRef (0x03#8 :: v30.tail) = .error .unknownType := by decide

/-- V60, V62, V63, V65, V66, V67 of the illegal packets. -/
theorem test_decode_opcode_00 : decode (.fmtP [0x00#8]) = .error .badCommand := by decide
theorem test_decode_opcode_13 : decode (.fmtP [0x13#8]) = .error .badCommand := by decide
theorem test_decode_short : decode (.fmtP [0x12#8, 0x07#8]) = .error .badCommand := by decide
theorem test_decode_length_byte : decode (.fmtP [0x03#8, 0x04#8, 0x54#8, 0x4C#8, 0x48#8]) = .error .badCommand := by decide
theorem test_decode_empty : decode (.fmtP []) = .error .badCommand := by decide
theorem test_decode_keyld_short : decode (.fmtP [0x01#8, 0x00#8, 0x01#8, 0x02#8]) = .error .badCommand := by decide

/-- The table's rows with operand bytes of zeros. -/
theorem test_table_keyld : decodeTableWord 8 0x01 = some (.keyld (Vector.replicate 16 0x00#8)) := by decide
theorem test_table_encode : decodeTableWord 8 0x10 = some (.encode 0x00#8 0x00#8 0x00#8 []) := by decide
theorem test_table_ctrltx : decodeTableWord 8 0x12 = some (.ctrltx 0x00#8 0x00#8) := by decide
theorem test_table_runs_pack :
    lastResponse (step (State.reset.withFetchWord 8 0x02)) = some [0x00#8, 0x00#8] := by decide

/-! ## Instructions -/

/-- V13, V15. -/
theorem test_pack : lastResponse (exec (.pack 0x00#8 0x02#8 0x01#8 0x03#8) (keyed 0)) = some [0x00#8, 0x27#8] := by decide
theorem test_pack_range : lastResponse (exec (.pack 0x04#8 0x00#8 0x00#8 0x00#8) (keyed 0)) = some [0x12#8] := by decide
/-- V04: mixed case, on a configuration; V12: a space is no kind. -/
theorem test_parse : parseOp cfgRef [0x74#8, 0x4C#8, 0x68#8, 0x50#8] = .ok 0x1B#8 := by decide
theorem test_parse_space : parseOp cfgRef [0x54#8, 0x4C#8, 0x48#8, 0x20#8] = .error .invalidOrder := by decide
/-- V16. -/
theorem test_unpack :
    unpackOp cfgRef 0x27#8 = [0x00#8, 0x02#8, 0x01#8, 0x03#8, 0x54#8, 0x48#8, 0x4C#8, 0x50#8] := by decide
theorem test_ctrlByte : lastResponse (exec (.ctrlByte 0#2 2#2 1#2 3#2) (keyed 0)) = some [0x00#8, 0x27#8] := by decide
/-- V25, through the payload of R51, and V28. -/
theorem test_encode_measurement :
    encodeOp cfgRef (some kTest) 0x00#8 0x09#8 0x2A#8 (measurementPayload ⟨-32768, 65535, 0, 65535⟩) =
      .ok [0x01#8, 0x09#8, 0x2A#8, 0x66#8, 0xFD#8, 0x0B#8, 0xF4#8, 0x02#8, 0x19#8, 0xEF#8, 0xE8#8, 0xBE#8] := by decide
theorem test_encode_padded :
    encodeOp cfgRef (some kTest) 0x00#8 0x09#8 0x2A#8 [0xAA#8, 0xBB#8, 0xCC#8] =
      .ok [0x01#8, 0x09#8, 0x2A#8, 0x4C#8, 0x46#8, 0x38#8, 0x0B#8, 0x02#8, 0x19#8, 0x10#8, 0x17#8, 0x3D#8] := by decide
/-- V30 and V41. -/
theorem test_decode_good :
    decodeOp cfgRef (some kTest) v30 =
      .ok [0x00#8, 0x09#8, 0xFE#8, 0x00#8, 0x11#8, 0x94#8, 0x27#8, 0x8D#8, 0x00#8, 0x78#8] := by decide
theorem test_decode_tampered :
    decodeOp cfgRef (some kTest)
      [0x01#8, 0x09#8, 0x2A#8, 0x18#8, 0xFD#8, 0xE4#8, 0x9F#8, 0x25#8, 0x94#8, 0x10#8, 0x6F#8, 0x3B#8] =
      .error .authFailed := by decide
/-- V44: the other type tag, so the tag is checked with it; V31: a CONTROL frame. -/
theorem test_frameMeasure_fields :
    measurementOf #v[0xFE#8, 0x00#8, 0x11#8, 0x94#8, 0x27#8, 0x8D#8, 0x00#8, 0x78#8] = ⟨-512, 4500, 10125, 120⟩ := by decide
theorem test_frameMeasure_other_type :
    openFrame cfgRef (some kTest) .control 0x09#8 0x2A#8
      #v[0x18#8, 0xFD#8, 0xE5#8, 0x9F#8, 0x25#8, 0x94#8, 0x10#8, 0x6F#8] 0x3B#8 = .error .authFailed := by decide
theorem test_frameControl :
    openFrame cfgRef (some kTest) .control 0x07#8 0x01#8
      #v[0x33#8, 0x2B#8, 0x22#8, 0x39#8, 0x30#8, 0x37#8, 0x4E#8, 0x45#8] 0xBB#8 = .ok [0x01#8, 0x07#8, 0x27#8] := by decide
/-- V55: the wrap. -/
theorem test_ctrltx_wrap :
    lastResponse (ctrltxOp cfgRef 0x07#8 0x27#8 (keyed 0xFF#8)) =
      some [0x00#8, 0x02#8, 0x07#8, 0x00#8, 0x38#8, 0x16#8, 0x2D#8, 0x24#8, 0x3B#8, 0x32#8, 0x49#8, 0x40#8, 0xB6#8] := by
  decide
theorem test_ctrltx_seq : seqAfter (ctrltxOp cfgRef 0x07#8 0x27#8 (keyed 0xFF#8)) = some 0x00#8 := by decide
/-- V50, V51. -/
theorem test_keyld : lastResponse (exec (.keyld kTest) State.reset) = some [0x00#8] := by decide
theorem test_keyld_locked : lastResponse (exec (.keyld (Vector.replicate 16 0xFF#8)) (keyed 0)) = some [0x11#8] := by decide
/-- V57. -/
theorem test_ctrltx_no_key : lastResponse (exec (.ctrltx 0x07#8 0x27#8) State.reset) = some [0x10#8] := by decide
/-- P1: PARSE gives 0x27 for THLP, so the host issues CTRLTX 7, 0x27; S5: after an InvalidOrder it issues nothing. -/
theorem test_setorder : setOrderNext 0x07#8 [0x00#8, 0x27#8] = [.ctrltx 0x07#8 0x27#8] := by decide
theorem test_setorder_invalid : setOrderNext 0x03#8 [0x04#8] = [] := by decide

/-! ## Witnesses: the hypotheses of each statement, met together -/

/-- An unkeyed block that is not the reset state. -/
def unkeyed : State := { keyed 0 with keyValid := false }

theorem witness_PackResult_legal :
    (3#8 : Byte).toNat ≤ 3 ∧ (0#8 : Byte).toNat ≤ 3 ∧ (3#8 : Byte).toNat ≤ 3 ∧ (0#8 : Byte).toNat ≤ 3 := by decide
theorem witness_PackResult_illegal :
    ¬((3#8 : Byte).toNat ≤ 3 ∧ (3#8 : Byte).toNat ≤ 3 ∧ (3#8 : Byte).toNat ≤ 3 ∧ (4#8 : Byte).toNat ≤ 3) := by decide
theorem witness_ParseResult_letters :
    spells 0x54#8 .temperature ∧ spells 0x6C#8 .light ∧ spells 0x48#8 .humidity ∧ spells 0x70#8 .pressure :=
  ⟨.inl rfl, .inr rfl, .inl rfl, .inr rfl⟩
theorem witness_ParseResult_length : ([0x54#8, 0x4C#8, 0x48#8] : Packet).length ≠ 4 := by decide
theorem witness_ParseResult_character : ∃ ch ∈ ([0x54#8, 0x4C#8, 0x48#8, 0x58#8] : Packet), ∀ k, ¬spells ch k :=
  ⟨0x58#8, by simp, fun k => by cases k <;> simp [spells]⟩
theorem witness_PackerLaws_case :
    ([0x74#8, 0x6C#8] : Packet).map foldCase = ([0x54#8, 0x4C#8] : Packet).map foldCase := by decide
theorem witness_PackerLaws_injective :
    ∃ ctrl : Byte, exec (.parse [letter .light, letter .light, letter .light, letter .light]) (keyed 0) =
      .next ((keyed 0).respond [0x00#8, ctrl]) :=
  ⟨_, by rw [exec_eq]; rfl⟩
theorem witness_EncodeResult_selector : (2#8 : Byte).toNat > 1 := by decide
theorem witness_EncodeResult_length : (List.replicate 9 0x00#8).length > 8 := by decide
theorem witness_EncodeResult_unkeyed :
    (1#8 : Byte).toNat ≤ 1 ∧ (List.replicate 8 0x00#8).length ≤ 8 ∧ State.reset.keyValid = false := by decide
theorem witness_EncodeResult_keyed :
    (0#8 : Byte).toNat ≤ 1 ∧ ([] : Packet).length ≤ 8 ∧ (keyed 0).keyValid = true := by decide
theorem witness_DecodeResult_length : (v30 ++ [0x00#8]).length ≠ 12 := by decide
theorem witness_DecodeResult_twelve : v30.length = 12 := by decide
theorem witness_FrameRows_keyed : (keyed 0).keyValid = true := by decide
theorem witness_FrameRows_unkeyed : unkeyed.keyValid = false := by decide
/-- For every frame some tag byte matches and some other does not. -/
theorem witness_FrameRows_tags :
    ∃ g g' : Byte, Config.chip.tag kTest Config.chip.tagMeasure 0x09#8 0x2A#8 (Vector.replicate 8 0x00#8) = g ∧
      Config.chip.tag kTest Config.chip.tagMeasure 0x09#8 0x2A#8 (Vector.replicate 8 0x00#8) ≠ g' :=
  ⟨_, Config.chip.tag kTest Config.chip.tagMeasure 0x09#8 0x2A#8 (Vector.replicate 8 0x00#8) + 1#8, rfl, fun h => by
    simpa using congrArg (fun x => x - Config.chip.tag kTest Config.chip.tagMeasure 0x09#8 0x2A#8 (Vector.replicate 8 0#8)) h⟩
theorem witness_BufferAgrees_longest : (List.replicate 255 0x00#8).length ≤ 255 := by
  rw [List.length_replicate]
theorem witness_BufferAgrees_too_long : (List.replicate 256 0x00#8).length > 255 := by
  rw [List.length_replicate]; decide
/-- SerdesLaws (a), KeystreamReuse: two blocks with one key. -/
theorem witness_two_blocks :
    (keyed 0).keyValid = true ∧ (keyed 5).keyValid = true ∧ (keyed 5).key = (keyed 0).key ∧ (1#8 : Byte).toNat ≤ 1 ∧
      ([0x27#8] : Packet).length ≤ 8 ∧ (List.replicate 8 0x27#8).length ≤ 8 := by decide
theorem witness_SerdesLaws_next : ∃ t, exec (.encode 0x01#8 0x07#8 0x01#8 [0x27#8]) (keyed 0) = .next t :=
  ⟨_, exec_eq _ _⟩
theorem witness_GatesNeedNoKeyedTransform :
    cfgRef.tagMeasure = cfgRef.tagMeasure ∧ cfgRef.tagGap = cfgRef.tagGap ∧ (v30.take 11).length ≠ 12 ∧
      (0x03#8 :: v30.tail).length = 12 ∧ (0x03#8 :: v30.tail)[0]? ≠ some cfgRef.tagMeasure ∧
      (0x03#8 :: v30.tail)[0]? ≠ some (tagControl cfgRef) := by decide
theorem witness_MeasurementFields : (Measurement.mk (-32768) 65535 0 65535).inRange = true := by decide
theorem witness_MeasurementEndToEnd :
    (keyed 0).keyValid = true ∧ (keyed 5).keyValid = true ∧ (keyed 5).key = (keyed 0).key ∧
      (Measurement.mk 32767 0 65535 0).inRange = true := by decide
theorem witness_ExactlyOneTagPasses_measure :
    (keyed 0).keyValid = true ∧
      (Config.chip.tagMeasure = Config.chip.tagMeasure ∨ Config.chip.tagMeasure = tagControl Config.chip) :=
  ⟨rfl, .inl rfl⟩
theorem witness_ExactlyOneTagPasses_control :
    (keyed 0).keyValid = true ∧
      (tagControl Config.chip = Config.chip.tagMeasure ∨ tagControl Config.chip = tagControl Config.chip) :=
  ⟨rfl, .inr rfl⟩

/-- A configuration whose tag is the first payload byte and whose keystream is zero. -/
def cfgHead : Config :=
  { cfgRef with ks := fun _ _ _ _ => Vector.replicate 8 0x00#8, tag := fun _ _ _ _ p => p[0] }

/-- TagBound holds of `cfgHead` with no slack: 2^56 payloads have any one first byte. -/
theorem witness_TagBound : TagBound cfgHead 0 := by
  intro k t id n g ps hn hg
  have hm : (ps.map fun p : Block8 => fun i : Fin 7 => p[i.val + 1].toFin).Nodup := by
    refine List.Nodup.map_on ?_ hn
    intro p hp q hq h
    have h0 : p[0] = q[0] := (hg p hp).trans (hg q hq).symm
    ext1 i hi
    cases i with
    | zero => exact h0
    | succ j =>
      exact BitVec.toFin_inj.mp (congrFun h ⟨j, by omega⟩)
  have hc := hm.length_le_card
  rw [List.length_map, Fintype.card_fun, Fintype.card_fin, Fintype.card_fin] at hc
  omega

theorem witness_TagBoundLimitsAcceptance :
    [Vector.replicate 8 0x00#8].Nodup ∧
      ∀ ct ∈ [Vector.replicate 8 0x00#8],
        ∃ res, decodeOp cfgHead (some kTest) ([tagOf cfgHead .control, 0x07#8, 0x01#8] ++ ct.toList ++ [0x00#8]) = .ok res :=
  ⟨by simp, fun ct h => by
    rw [List.mem_singleton.mp h]
    exact ⟨[0x01#8, 0x07#8, 0x00#8], by decide⟩⟩
theorem witness_Interoperation_same :
    ([0x27#8] : Packet).length ≤ 8 ∧ cfgRef.tagMeasure = cfgRef.tagMeasure ∧ cfgRef.tagGap = cfgRef.tagGap ∧
      cfgRef.ks = cfgRef.ks ∧ cfgRef.tag = cfgRef.tag := ⟨by decide, rfl, rfl, rfl, rfl⟩
theorem witness_Interoperation_other_tags :
    tagOf cfgRef .control ≠ ({ cfgRef with tagMeasure := 0x10#8 } : Config).tagMeasure ∧
      tagOf cfgRef .control ≠ tagControl { cfgRef with tagMeasure := 0x10#8 } := by decide
theorem witness_CtrltxResult_other :
    (∀ id ctrl, Instr.unpack 0x27#8 ≠ .ctrltx id ctrl) ∧ ∃ t, exec (.unpack 0x27#8) (keyed 5) = .next t :=
  ⟨by simp, _, exec_eq _ _⟩
theorem witness_CtrltxResult_unkeyed : State.reset.keyValid = false := by decide
theorem witness_CtrltxResult_keyed : (keyed 0xFF#8).keyValid = true := by decide
theorem witness_KeyldResult_unlocked : State.reset.keyValid = false := by decide
theorem witness_KeyldResult_locked : (keyed 0).keyValid = true := by decide
theorem witness_OnlyWrites : ∃ t, exec (.keyld kTest) State.reset = .next t := ⟨_, exec_eq _ _⟩
theorem witness_NonceSequence :
    let s := (keyed 0xFF#8).withInbox [.command (.fmtP [0x04#8, 0x27#8]), .command (.fmtP [0x12#8, 0x07#8, 0x27#8])]
    s.keyValid = true ∧ noReset s.inbox = true ∧ s.inbox[1]? = some (.command (.fmtP [0x12#8, 0x07#8, 0x27#8])) := by decide
/-- KeyLockedOverRuns, ReplayAnswersTheSame. -/
theorem witness_keyed_run :
    let s := (keyed 0).withInbox [.command (.fmtP [0x01#8]), .command (.fmtC 0x27#8)]
    s.keyValid = true ∧ noReset s.inbox = true := by decide
theorem witness_ResetState : ∃ t, exec (.keyld kTest) State.reset = .next t := ⟨_, exec_eq _ _⟩
theorem witness_ResetEvent : ((keyed 5).withInbox [.reset, .reset]).inbox = .reset :: [.reset] := by decide
theorem witness_ResetErasesHistory :
    let cmds : List Encoded := [.fmtP [0x04#8, 0x27#8]]
    ((keyed 5).withInbox [.reset, .command (.fmtP [0x04#8, 0x27#8])]).inbox = .reset :: cmds.map .command ∧
      (State.reset.withInbox [.reset, .command (.fmtP [0x04#8, 0x27#8])]).inbox = .reset :: cmds.map .command := by decide
theorem witness_StepRuns_decoded :
    ((keyed 0).withInbox [.command (.fmtP [0x04#8, 0x27#8])]).inbox = .command (.fmtP [0x04#8, 0x27#8]) :: [] ∧
      decode (.fmtP [0x04#8, 0x27#8]) = .ok (.unpack 0x27#8) := by decide
theorem witness_StepRuns_idle : (keyed 0).inbox = [] := by decide
theorem witness_TableWordRunsNext : decodeTableWord 8 0x04 = some (.unpack 0x00#8) := by decide
theorem witness_IllegalPackets_unlawful :
    ((keyed 0).withInbox [.command (.fmtP [])]).inbox = .command (.fmtP []) :: [] ∧ ¬lawfulPacket [] := by
  simp [lawfulPacket]
theorem witness_IllegalPackets_lawful : lawfulPacket [0x12#8, 0x07#8, 0x27#8] := by simp [lawfulPacket]
theorem witness_IllegalPackets_operand :
    lawfulPacket [0x02#8, 0x00#8, 0x00#8, 0x00#8, 0x04#8] ∧
      decode (.fmtP [0x02#8, 0x00#8, 0x00#8, 0x00#8, 0x04#8]) = .ok (.pack 0x00#8 0x00#8 0x00#8 0x04#8) ∧
      ¬operandsInRange (.pack 0x00#8 0x00#8 0x00#8 0x04#8) := by
  refine ⟨by simp [lawfulPacket], by decide, by simp [operandsInRange]⟩
theorem witness_EveryCommandAnswered_reset : ((keyed 0).withInbox [.reset]).inbox = .reset :: [] := by decide
theorem witness_CommandsInOrder :
    ((keyed 0).withInbox [.reset]).inbox ≠ [] ∧ ∃ t, step ((keyed 0).withInbox [.reset]) = .next t :=
  ⟨by decide, _, rfl⟩
theorem witness_FailureChangesNothing :
    ∃ t, step ((keyed 0).withInbox [.command (.fmtP [0x00#8])]) = .next t ∧ t.outbox = [[0x1F#8]] := ⟨_, rfl, rfl⟩
theorem witness_CorrectHost :
    (keyed 0).keyValid = true ∧ operandsInRange (.encode 0x01#8 0x07#8 0x01#8 [0x27#8]) ∧
      (Instr.encode 0x01#8 0x07#8 0x01#8 [0x27#8]).wf = true ∧ ∀ k, Instr.encode 0x01#8 0x07#8 0x01#8 [0x27#8] ≠ .keyld k :=
  ⟨rfl, by simp [operandsInRange], by decide, by simp⟩
theorem witness_KeyUnreadBeforeLoad : unkeyed.keyValid = false ∧ ∃ t, exec (.decode v30) unkeyed = .next t :=
  ⟨rfl, _, exec_eq _ _⟩
theorem witness_OutcomeIgnoresHistory : sameTriple (keyed 0) ((keyed 0).respond [0x04#8]) := ⟨rfl, rfl, rfl⟩
theorem witness_DecodeOfEncode : (Instr.parse (List.replicate 255 0x54#8)).wf = true := by
  simp only [Instr.wf, List.length_replicate]; decide
theorem witness_EncodeOfDecode : decode (.fmtP [0x11#8, 0x00#8]) = .ok (.decode []) := by decide
theorem witness_StepKeepsInvariant :
    ((keyed 5).withInbox [.command (.fmtP [0x00#8])]).inv = true ∧
      ∃ t, step ((keyed 5).withInbox [.command (.fmtP [0x00#8])]) = .next t := ⟨by decide, _, rfl⟩

end Sys2Proof.Tests
end

/-! ## The scope of the block: answers, history and the bound on false accepts (spec/00_scope.md)

First what an instruction's outcome reads and how long its result is, each said once over `outcome` and `effect`; then the
three statements. -/

namespace Sys2Proof.Machine

/-! ### What an instruction reads of the state (R18, R25) -/

theorem loadedKey_congr {s s' : State} (h : sameTriple s s') : s.loadedKey = s'.loadedKey := by
  obtain ⟨hkey, hvalid, -⟩ := h
  simp only [State.loadedKey, hkey, hvalid]

/-- The outcome reads the state through KEY_VALID, the loaded key and the next SEQ only. -/
theorem outcome_congr (i : Instr) {s s' : State} (h : sameTriple s s') : outcome i s = outcome i s' := by
  have hloaded := loadedKey_congr h
  obtain ⟨-, hvalid, hseq⟩ := h
  simp only [outcome, hvalid, hloaded, nextSeq_eq, hseq]

/-- The effect on KEY, KEY_VALID and SEQ is a function of the three. -/
theorem sameTriple_effect (i : Instr) {s s' : State} (h : sameTriple s s') :
    sameTriple (effect i s) (effect i s') := by
  obtain ⟨hkey, hvalid, hseq⟩ := h
  unfold effect
  rw [← hvalid]
  split
  · exact ⟨rfl, rfl, hseq⟩
  · exact ⟨hkey, hvalid, congrArg (· + 1#8) hseq⟩
  · exact ⟨hkey, hvalid, hseq⟩

/-- Settles O37: both runs are an effect and one response, and each reads the common triple only. -/
theorem outcomeIgnoresHistory : Obligations.OutcomeIgnoresHistory := by
  intro i s s' h
  refine ⟨_, _, responseOf (outcome i s), exec_eq i s, exec_eq i s', ?_, ?_, sameTriple_effect i h⟩
  · simp
  · simp [outcome_congr i h]

/-! ### The length of a result (R58 to R64) -/

theorem oneByte_ok_length {r : Except Failure Byte} {p : Packet} (h : oneByte r = .ok p) : p.length = 1 := by
  cases r with
  | ok b => cases h; rfl
  | error f => cases h

@[simp] theorem sealFrame_length (c : Config) (k : Key) (ty : FrameType) (id n : Byte) (pt : Block8) :
    (sealFrame c k ty id n pt).length = 12 := buildFrame_length _

theorem encodeOp_ok_length {c : Config} {key : Option Key} {ft id n : Byte} {pl p : Packet}
    (h : encodeOp c key ft id n pl = .ok p) : p.length = 12 := by
  unfold encodeOp at h
  split at h
  · cases h
  · split at h
    · cases h
    · split at h
      · cases h
      · cases h
        exact sealFrame_length ..

theorem frameResult_length (ty : FrameType) (id : Byte) (pt : Block8) :
    (frameResult ty id pt).length = 10 ∨ (frameResult ty id pt).length = 3 := by
  cases ty
  · exact .inl (by simp [frameResult])
  · exact .inr rfl

/-- The plaintext that a ciphertext stands for under a key and a header (R87): what `openFrame` checks and returns, by
`openFrame_some`. -/
def plaintextOf (c : Config) (k : Key) (ty : FrameType) (id n : Byte) (ct : Block8) : Block8 :=
  xor8 ct (ksgen c k (tagOf c ty) id n)

theorem openFrame_some (c : Config) (k : Key) (ty : FrameType) (id n g : Byte) (ct : Block8) :
    openFrame c (some k) ty id n ct g =
      if c.tag k (tagOf c ty) id n (plaintextOf c k ty id n ct) = g then .ok (frameResult ty id (plaintextOf c k ty id n ct))
      else .error .authFailed :=
  if_congr decide_eq_true_iff rfl rfl

/-- A frame is opened with success exactly when a key is loaded and the received tag is that of the plaintext (R81, R87). -/
theorem openFrame_eq_ok {c : Config} {key : Option Key} {ty : FrameType} {id n g : Byte} {ct : Block8} {p : Packet} :
    openFrame c key ty id n ct g = .ok p ↔
      ∃ k, key = some k ∧ c.tag k (tagOf c ty) id n (plaintextOf c k ty id n ct) = g ∧
        frameResult ty id (plaintextOf c k ty id n ct) = p := by
  cases key with
  | none => simp [openFrame]
  | some k =>
    rw [openFrame_some]
    split <;> simp [*]

theorem openFrame_ok_length {c : Config} {key : Option Key} {ty : FrameType} {id n g : Byte} {ct : Block8} {p : Packet}
    (h : openFrame c key ty id n ct g = .ok p) : p.length = 10 ∨ p.length = 3 := by
  obtain ⟨k, -, -, rfl⟩ := openFrame_eq_ok.mp h
  exact frameResult_length ..

theorem decodeOp_ok_length {c : Config} {key : Option Key} {buf p : Packet}
    (h : decodeOp c key buf = .ok p) : p.length = 10 ∨ p.length = 3 := by
  unfold decodeOp at h
  split at h
  · cases h
  · split at h
    · cases h
    · exact openFrame_ok_length h

/-- A good result has one of the lengths of R58 to R64. -/
theorem outcome_ok_length {i : Instr} {s : State} {p : Packet} (h : outcome i s = .ok p) :
    p.length ∈ [0, 1, 3, 8, 10, 12] := by
  cases i with
  | keyld k =>
    simp only [outcome] at h
    split at h
    · cases h
    · cases h
      simp
  | pack a b c d => simp [oneByte_ok_length h]
  | parse txt => simp [oneByte_ok_length h]
  | unpack ctrl =>
    cases h
    simp [unpackOp]
  | encode ft id n pl => simp [encodeOp_ok_length h]
  | decode buf => rcases decodeOp_ok_length h with hl | hl <;> simp [hl]
  | ctrltx id ctrl =>
    simp only [outcome] at h
    split at h
    · cases h
    · cases h
      simp
  | frameMeasure id n ct g => rcases openFrame_ok_length h with hl | hl <;> simp [hl]
  | frameControl id n ct g => rcases openFrame_ok_length h with hl | hl <;> simp [hl]
  | ctrlByte s0 s1 s2 s3 => simp [oneByte_ok_length h]

/-- Every instruction answers in a legal form (R67). -/
theorem legalResponse_outcome (i : Instr) (s : State) : legalResponse (responseOf (outcome i s)) = true := by
  cases h : outcome i s with
  | error f => exact legalResponse_failure f
  | ok p =>
    have hlen := outcome_ok_length h
    simp only [responseOf_ok, legalResponse, hlen, decide_true, Bool.and_self, Bool.true_or]

/-- Settles O32, by the four things a step can do. -/
theorem everyCommandAnswered : Obligations.EveryCommandAnswered := by
  intro s
  obtain ⟨hq, hstep⟩ | ⟨q, hq, hstep⟩ | ⟨e, q, f, hq, -, hstep⟩ | ⟨e, q, i, hq, -, hstep⟩ := step_cases s
  · exact ⟨_, hstep, by simp [hq]⟩
  · exact ⟨_, hstep, by simp [hq]⟩
  · exact ⟨_, hstep, by simp [hq, legalResponse_failure]⟩
  · exact ⟨_, hstep.trans (exec_eq _ _), by simp [hq, legalResponse_outcome]⟩

/-! ### The bound on false accepts (R12, R83) -/

/-- R76: the keystream applied twice gives the data back. -/
theorem xor8_xor8 (x ks : Block8) : xor8 (xor8 x ks) ks = x := by
  ext1 i hi
  simp

/-- Under one key and header different ciphertexts stand for different plaintexts. -/
theorem plaintextOf_injective (c : Config) (k : Key) (ty : FrameType) (id n : Byte) :
    Function.Injective (plaintextOf c k ty id n) :=
  Function.LeftInverse.injective (g := plaintextOf c k ty id n) fun ct => xor8_xor8 ct _

/-- DECODE of a frame that carries a type tag opens it as a frame of that type (R87). -/
theorem decodeOp_frame (c : Config) (key : Option Key) (ty : FrameType) (id n g : Byte) (ct : Block8) :
    decodeOp c key ([tagOf c ty, id, n] ++ ct.toList ++ [g]) = openFrame c key ty id n ct g := by
  have hsplit : splitFrame ([tagOf c ty, id, n] ++ ct.toList ++ [g]) = some ⟨tagOf c ty, id, n, ct, g⟩ :=
    splitFrame_buildFrame ⟨tagOf c ty, id, n, ct, g⟩
  simp only [decodeOp, hsplit, typeOfTag_tagOf]

/-- Settles O17: the accepted ciphertexts stand for as many plaintexts (`plaintextOf_injective`), each with the received tag,
and TagBound counts those. -/
theorem tagBoundLimitsAcceptance : Obligations.TagBoundLimitsAcceptance := by
  intro c slack k ty id n g cts hbound hnodup haccept
  have htag : ∀ pt ∈ cts.map (plaintextOf c k ty id n), c.tag k (tagOf c ty) id n pt = g := by
    intro pt hpt
    obtain ⟨ct, hct, rfl⟩ := List.mem_map.mp hpt
    obtain ⟨res, hres⟩ := haccept ct hct
    rw [decodeOp_frame] at hres
    obtain ⟨_, ⟨⟩, htag, -⟩ := openFrame_eq_ok.mp hres
    exact htag
  have hlen := hbound k (tagOf c ty) id n g _ (hnodup.map (plaintextOf_injective c k ty id n)) htag
  rwa [List.length_map] at hlen

end Sys2Proof.Machine


/-! ## The persistent state: KEY, KEY_VALID and SEQ (spec/10_state.md)

What one instruction writes, what it reads of KEY before a load, and the two facts that every step keeps: the lock of a
loaded key, and the block's invariant. -/

namespace Sys2Proof.Machine

/-! ### The lock of a loaded key (R22, R23, R112) -/

/-- What the lock keeps along a run: `k` is loaded and no reset event waits. -/
def State.lockedOn (k : Key) (s : State) : Prop := s.key = k ∧ s.keyValid = true ∧ noReset s.inbox = true

@[simp] theorem noReset_reset_cons (q : List HostInput) : noReset (.reset :: q) = false := rfl

@[simp] theorem noReset_command_cons (e : Encoded) (q : List HostInput) : noReset (.command e :: q) = noReset q := by
  simp [noReset]

/-- With no reset event waiting, an instruction is the most that a step can be, and no instruction unloads a key. -/
theorem step_lockedOn {k : Key} {s : State} (h : s.lockedOn k) : ∃ t, step s = .next t ∧ t.lockedOn k := by
  obtain ⟨hkey, hvalid, hnoreset⟩ := h
  obtain ⟨hq, hstep⟩ | ⟨q, hq, -⟩ | ⟨e, q, f, hq, -, hstep⟩ | ⟨e, q, i, hq, -, hstep⟩ := step_cases s
  · exact ⟨s, hstep, hkey, hvalid, hnoreset⟩
  · simp [hq] at hnoreset
  · exact ⟨_, hstep, hkey, hvalid, by simpa [hq] using hnoreset⟩
  · obtain ⟨hkey', hvalid'⟩ := effect_keyed i (s := s.withInbox q) hvalid
    exact ⟨_, hstep.trans (exec_eq _ _), hkey'.trans hkey, hvalid', by simpa [hq] using hnoreset⟩

/-- A property from which every step goes on with the same property holds at the end of every run. -/
theorem run_keeps {P : State → Prop} (hstep : ∀ s, P s → ∃ t, step s = .next t ∧ P t) (n : Nat) {s : State} (h : P s) :
    ∃ t, run n s = .next t ∧ P t := by
  induction n generalizing s with
  | zero => exact ⟨s, run_zero s, h⟩
  | succ n ih =>
    obtain ⟨u, hu, hP⟩ := hstep s h
    rw [run_of_step hu]
    exact ih hP

/-- Settles O23: every step keeps the lock on the key that the run began with. -/
theorem keyLockedOverRuns : Obligations.KeyLockedOverRuns := by
  intro n s hvalid hnoreset
  obtain ⟨t, hrun, hkey, hvalid', -⟩ := run_keeps (P := State.lockedOn s.key) (fun _ => step_lockedOn) n
    ⟨rfl, hvalid, hnoreset⟩
  exact ⟨t, hrun, hkey, hvalid'⟩

/-! ### The invariant (R24, R67) -/

theorem inv_respond {s : State} {r : Packet} (h : s.inv = true) (hr : legalResponse r = true) :
    (s.respond r).inv = true := by
  obtain ⟨hseq, hout⟩ := (inv_iff s).mp h
  refine (inv_iff _).mpr ⟨hseq, fun x hx => ?_⟩
  rcases List.mem_append.mp hx with hold | hnew
  · exact hout x hold
  · rw [List.mem_singleton.mp hnew]
    exact hr

theorem inv_afterReset {s : State} (h : s.inv = true) : s.afterReset.inv = true :=
  (inv_iff _).mpr ⟨fun _ => rfl, ((inv_iff s).mp h).2⟩

/-- An instruction steps SEQ on a keyed block only, and its effect answers nothing. -/
theorem inv_effect (i : Instr) {s : State} (h : s.inv = true) : (effect i s).inv = true := by
  obtain ⟨hseq, hout⟩ := (inv_iff s).mp h
  refine (inv_iff _).mpr ⟨fun hvalid => ?_, by simpa using hout⟩
  obtain ⟨hunkeyed, hkept⟩ := effect_unkeyed i hvalid
  exact hkept.trans (hseq hunkeyed)

/-- Settles O42, by the four things a step can do; the inputs still waiting are no part of the invariant. -/
theorem stepKeepsInvariant : Obligations.StepKeepsInvariant := by
  intro s t hinv hnext
  have hinv' (q : List HostInput) : (s.withInbox q).inv = true := hinv
  obtain ⟨-, hstep⟩ | ⟨q, -, hstep⟩ | ⟨e, q, f, -, -, hstep⟩ | ⟨e, q, i, -, -, hstep⟩ := step_cases s
  · cases hstep.symm.trans hnext
    exact hinv
  · cases hstep.symm.trans hnext
    exact inv_afterReset (hinv' q)
  · cases hstep.symm.trans hnext
    exact inv_respond (hinv' q) (legalResponse_failure f)
  · cases (hstep.trans (exec_eq _ _)).symm.trans hnext
    exact inv_respond (inv_effect i (hinv' q)) (legalResponse_outcome i _)

/-- Settles O43: no key is loaded and SEQ is 0, and nothing has been answered. -/
theorem resetMeetsInvariant : Obligations.ResetMeetsInvariant :=
  (inv_iff _).mpr ⟨fun _ => reset_seq, by simp⟩

/-! ### The writes of an instruction (R41) -/

theorem effect_keyld_of_valid (k : Key) {s : State} (h : s.keyValid = true) : effect (.keyld k) s = s := by
  simp only [effect, h]

theorem effect_keyld_of_not_valid (k : Key) {s : State} (h : s.keyValid = false) :
    effect (.keyld k) s = s.installKey k := by
  simp only [effect, h]

theorem effect_ctrltx_of_valid (id ctrl : Byte) {s : State} (h : s.keyValid = true) :
    effect (.ctrltx id ctrl) s = s.stepSeq := by
  simp only [effect, h]

theorem effect_ctrltx_of_not_valid (id ctrl : Byte) {s : State} (h : s.keyValid = false) :
    effect (.ctrltx id ctrl) s = s := by
  simp only [effect, h]

theorem effect_of_ne_keyld_ctrltx {i : Instr} (hkeyld : ∀ k, i ≠ .keyld k) (hctrltx : ∀ id ctrl, i ≠ .ctrltx id ctrl)
    (s : State) : effect i s = s := by
  unfold effect
  split
  · exact absurd rfl (hkeyld _)
  · exact absurd rfl (hctrltx _ _)
  · rfl

/-- Settles O21: the response writes none of the three, and the effect is that of KEYLD, of CTRLTX, or none. -/
theorem onlyWritesOfPersistentState : Obligations.OnlyWritesOfPersistentState := by
  intro i s t hnext
  cases (exec_eq i s).symm.trans hnext
  cases i with
  | keyld k =>
    cases h : s.keyValid
    · simp [effect_keyld_of_not_valid k h]
    · simp [effect_keyld_of_valid k h, h]
  | ctrltx id ctrl =>
    cases h : s.keyValid
    · simp [effect_ctrltx_of_not_valid id ctrl h, h]
    · simp [effect_ctrltx_of_valid id ctrl h, h]
  | _ => simp [effect_of_ne_keyld_ctrltx]

/-! ### KEY before it is loaded (R31) -/

/-- No outcome reads KEY while KEY_VALID is 0: its one reader is the accessor of the loaded key, which is then empty. -/
theorem outcome_key_unread (i : Instr) {s : State} (k : Key) (h : s.keyValid = false) :
    outcome i { s with key := k } = outcome i s := by
  have hloaded : State.loadedKey { s with key := k } = s.loadedKey := by simp only [State.loadedKey, h]
  simp only [outcome, hloaded, nextSeq_eq]

/-- On an unkeyed block an effect leaves KEY alone, or KEYLD overwrites it and so loads it. -/
theorem effect_key_unread (i : Instr) {s : State} (k : Key) (h : s.keyValid = false) :
    effect i { s with key := k } =
      { effect i s with key := if (effect i s).keyValid then (effect i s).key else k } := by
  have h' : State.keyValid { s with key := k } = false := h
  cases i with
  | keyld k' =>
    rw [effect_keyld_of_not_valid k' h, effect_keyld_of_not_valid k' h']
    rfl
  | ctrltx id ctrl =>
    rw [effect_ctrltx_of_not_valid id ctrl h, effect_ctrltx_of_not_valid id ctrl h']
    simp [h]
  | _ => simp [effect_of_ne_keyld_ctrltx, h]

/-- Settles O36: neither the effect nor the response reads the unloaded KEY. -/
theorem keyUnreadBeforeLoad : Obligations.KeyUnreadBeforeLoad := by
  intro i s t k hvalid hnext
  cases (exec_eq i s).symm.trans hnext
  rw [exec_eq, outcome_key_unread i k hvalid, effect_key_unread i k hvalid]
  rfl

/-- Settles O25: right after reset no key is loaded, so nothing reads KEY (`keyUnreadBeforeLoad`). -/
theorem resetState : Obligations.ResetState :=
  ⟨reset_seq, reset_keyValid, fun i k t => keyUnreadBeforeLoad i State.reset t k reset_keyValid⟩

end Sys2Proof.Machine


/-! ## The command port: one step per waiting input, oldest first (spec/20_memory.md)

What a step does with the oldest input, said once; that an input presented behind it is not read by that step; and the run
that empties the queue. -/

namespace Sys2Proof.Machine

/-! ### The step on the oldest input (R42, R43) -/

theorem step_of_inbox_nil {s : State} (h : s.inbox = []) : step s = .next s := by
  simp only [step, h, idle]

theorem step_of_inbox_cons {s : State} {x : HostInput} {rest : List HostInput} (h : s.inbox = x :: rest) :
    step s = acceptInput x (s.withInbox rest) := by
  simp only [step, h]

theorem acceptInput_command_ok {e : Encoded} {i : Instr} (h : decode e = .ok i) (s : State) :
    acceptInput (.command e) s = exec i s := by
  simp only [acceptInput, h]

theorem acceptInput_command_error {e : Encoded} {f : Failure} (h : decode e = .error f) (s : State) :
    acceptInput (.command e) s = raise f s := by
  simp only [acceptInput, h]

/-- Settles O29: the oldest input is accepted, and accepting a command that decodes is executing it. -/
theorem stepRunsDecodedInstruction : Obligations.StepRunsDecodedInstruction :=
  ⟨fun _ _ _ _ hq hdecode => (step_of_inbox_cons hq).trans (acceptInput_command_ok hdecode _),
    fun _ => step_of_inbox_nil⟩

/-! ### Inputs that wait (R43, R45) -/

/-- An instruction's effect neither reads nor writes the queue. -/
theorem effect_present (i : Instr) (s : State) (y : HostInput) : effect i (s.present y) = (effect i s).present y := by
  have hvalid : (s.present y).keyValid = s.keyValid := rfl
  unfold effect
  rw [hvalid]
  split <;> rfl

/-- The outcome does not read the queue: presenting an input leaves KEY, KEY_VALID and SEQ as they are. -/
theorem outcome_present (i : Instr) (s : State) (y : HostInput) : outcome i (s.present y) = outcome i s :=
  outcome_congr i ⟨rfl, rfl, rfl⟩

/-- Accepting an input commutes with presenting one more behind those that wait. -/
theorem acceptInput_present (x y : HostInput) {s t : State} (h : acceptInput x s = .next t) :
    acceptInput x (s.present y) = .next (t.present y) := by
  cases x with
  | reset =>
    cases h
    rfl
  | command e =>
    cases hdecode : decode e with
    | error f =>
      rw [acceptInput_command_error hdecode] at h ⊢
      cases h
      rfl
    | ok i =>
      rw [acceptInput_command_ok hdecode, exec_eq] at h ⊢
      cases h
      rw [effect_present, outcome_present]
      rfl

/-- With an input already waiting, a step commutes with presenting one more. -/
theorem step_present {s t : State} (y : HostInput) (hne : s.inbox ≠ []) (h : step s = .next t) :
    step (s.present y) = .next (t.present y) := by
  obtain ⟨x, rest, hq⟩ := List.exists_cons_of_ne_nil hne
  have hq' : (s.present y).inbox = x :: (rest ++ [y]) := congrArg (· ++ [y]) hq
  rw [step_of_inbox_cons hq] at h
  rw [step_of_inbox_cons hq']
  exact acceptInput_present x y h

/-! ### The run that empties the queue -/

/-- A step takes the oldest input off the queue and adds one response, or none for a reset event (`everyCommandAnswered`). -/
theorem step_takes_oldest {s : State} {x : HostInput} {rest : List HostInput} (h : s.inbox = x :: rest) :
    ∃ t, step s = .next t ∧ t.inbox = rest ∧
      t.outbox.length = s.outbox.length + if x = .reset then 0 else 1 := by
  obtain ⟨t, hstep, -, hreset, hcommand⟩ := everyCommandAnswered s
  cases x with
  | reset =>
    obtain ⟨hin, hout⟩ := hreset rest h
    exact ⟨t, hstep, hin, by simp [hout]⟩
  | command e =>
    obtain ⟨hin, r, -, hout⟩ := hcommand e rest h
    exact ⟨t, hstep, hin, by simp [hout]⟩

/-- One step per waiting input empties the queue, with one response for each input that is no reset event. -/
theorem run_empties_inbox (q : List HostInput) {s : State} (h : s.inbox = q) :
    ∃ t, run q.length s = .next t ∧ t.inbox = [] ∧
      t.outbox.length = s.outbox.length + (q.filter (fun x => decide (x ≠ .reset))).length := by
  induction q generalizing s with
  | nil => exact ⟨s, run_zero s, h, rfl⟩
  | cons x rest ih =>
    obtain ⟨u, hstep, hu, hanswered⟩ := step_takes_oldest h
    obtain ⟨t, hrun, ht, hout⟩ := ih hu
    refine ⟨t, (run_of_step hstep).trans hrun, ht, ?_⟩
    rw [hout, hanswered]
    by_cases hx : x = .reset
    · simp [hx]
    · simp [hx, Nat.add_assoc, Nat.add_comm 1]

/-- Settles O33: `step_present` for an input that waits, `run_empties_inbox` for the run. -/
theorem commandsInOrder : Obligations.CommandsInOrder :=
  ⟨fun _ _ y => step_present y, fun s => run_empties_inbox s.inbox rfl⟩

end Sys2Proof.Machine


/-! ## Encoding: the decoder and the encoder undo each other (spec/30_encoding.md)

What the packet decoder and the frame decoder do, said once; then that decoding is the inverse of encoding on well-formed
instructions, from which the statements about illegal packets, received buffers and control bytes follow. -/

namespace Sys2Proof.Machine

open Sys2Proof.Laws

/-! ### The packet decoder (R56, R57, R65) -/

theorem decodePacket_opcodeByte_of_some {op : Opcode} {operands : Packet} {i : Instr}
    (h : decodeOperands op operands = some i) : decodePacket (opcodeByte op :: operands) = .ok i := by
  simp only [decodePacket, opcodeOf_opcodeByte, h]

/-- A packet decodes only as an opcode of R57 and operands that this opcode takes. -/
theorem decodePacket_ok {cmd : Packet} {i : Instr} (h : decodePacket cmd = .ok i) :
    ∃ op operands, cmd = opcodeByte op :: operands ∧ decodeOperands op operands = some i := by
  cases cmd with
  | nil => cases h
  | cons b operands =>
    simp only [decodePacket] at h
    cases hop : opcodeOf b with
    | none => simp [hop] at h
    | some op =>
      cases hi : decodeOperands op operands with
      | none => simp [hop, hi] at h
      | some j =>
        simp only [hop, hi, Except.ok.injEq] at h
        exact ⟨op, operands, by rw [opcodeOf_eq_some hop], by rw [hi, h]⟩

/-- The packet decoder has one failure reason (R65 a, b). -/
theorem decodePacket_error {cmd : Packet} {f : Failure} (h : decodePacket cmd = .error f) : f = .badCommand := by
  unfold decodePacket at h
  split at h
  · exact (Except.error.inj h).symm
  · split at h
    · exact (Except.error.inj h).symm
    · split at h
      · cases h
      · exact (Except.error.inj h).symm

/-- A length byte that counts the bytes after it is the one the encoder writes. -/
theorem lengthPrefixed_of_length {m : Byte} {b : Packet} (h : b.length = m.toNat) : lengthPrefixed b = m :: b := by
  simp [lengthPrefixed, h]

theorem length_le_of_length_byte {m : Byte} {b : Packet} (h : b.length = m.toNat) : b.length ≤ 255 := by
  have hm := m.isLt
  omega

/-- Operands that an opcode takes are those the encoder writes for the instruction read (R58 to R64). -/
theorem encode_of_decodeOperands {op : Opcode} {operands : Packet} {i : Instr}
    (h : decodeOperands op operands = some i) : encode i = .fmtP (opcodeByte op :: operands) ∧ i.wf = true := by
  revert h
  -- the seven cases left are the commands in the order of R57, each with its packet's length met
  fun_cases decodeOperands op operands <;> rintro ⟨⟩
  case case1 hlen => exact ⟨by simp [encode, Vector.toList], rfl⟩
  case case3 => exact ⟨rfl, rfl⟩
  case case4 m txt hlen =>
    exact ⟨by rw [encode, lengthPrefixed_of_length hlen], decide_eq_true (length_le_of_length_byte hlen)⟩
  case case6 => exact ⟨rfl, rfl⟩
  case case7 ft id n l pl hlen =>
    exact ⟨by rw [encode, lengthPrefixed_of_length hlen], decide_eq_true (length_le_of_length_byte hlen)⟩
  case case9 m rxbuf hlen =>
    exact ⟨by rw [encode, lengthPrefixed_of_length hlen], decide_eq_true (length_le_of_length_byte hlen)⟩
  case case11 => exact ⟨rfl, rfl⟩

/-! ### The frame decoder (R49, R50) -/

theorem decodeFrame_of_split_none {c : Config} {buf : Packet} (h : splitFrame buf = none) :
    decodeFrame c buf = .error .badLength := by
  simp only [decodeFrame, h]

theorem decodeFrame_of_type_none {c : Config} {buf : Packet} {f : FrameParts} (hsplit : splitFrame buf = some f)
    (htype : typeOfTag c f.t = none) : decodeFrame c buf = .error .unknownType := by
  simp only [decodeFrame, hsplit, htype]

/-- The row of the opcode table that a frame of a type stands in. -/
def frameInstr (ty : FrameType) (f : FrameParts) : Instr :=
  match ty with
  | .measure => .frameMeasure f.id f.n f.ct f.g
  | .control => .frameControl f.id f.n f.ct f.g

theorem decodeFrame_of_type_some {c : Config} {buf : Packet} {f : FrameParts} {ty : FrameType}
    (hsplit : splitFrame buf = some f) (htype : typeOfTag c f.t = some ty) :
    decodeFrame c buf = .ok (frameInstr ty f) := by
  cases ty <;> simp only [decodeFrame, hsplit, htype, frameInstr]

theorem decodeFrame_buildFrame (c : Config) (ty : FrameType) {f : FrameParts} (h : f.t = tagOf c ty) :
    decodeFrame c (buildFrame f) = .ok (frameInstr ty f) :=
  decodeFrame_of_type_some (splitFrame_buildFrame f) (by rw [h, typeOfTag_tagOf])

/-- A buffer decodes only as a frame of 12 bytes that carries the tag of a type. -/
theorem decodeFrame_ok {c : Config} {buf : Packet} {i : Instr} (h : decodeFrame c buf = .ok i) :
    ∃ ty f, buf = buildFrame f ∧ f.t = tagOf c ty ∧ i = frameInstr ty f := by
  cases hsplit : splitFrame buf with
  | none => cases (decodeFrame_of_split_none hsplit).symm.trans h
  | some f =>
    cases htype : typeOfTag c f.t with
    | none => cases (decodeFrame_of_type_none hsplit htype).symm.trans h
    | some ty =>
      cases (decodeFrame_of_type_some hsplit htype).symm.trans h
      exact ⟨ty, f, (buildFrame_splitFrame hsplit).symm, typeOfTag_eq_some htype, rfl⟩

/-! ### Decoding and encoding -/

theorem decode_encode_of_decodeOperands {op : Opcode} {operands : Packet} {i : Instr}
    (hencode : encode i = .fmtP (opcodeByte op :: operands)) (h : decodeOperands op operands = some i) :
    decode (encode i) = .ok i := by
  rw [hencode]
  exact decodePacket_opcodeByte_of_some h

/-- Settles O39: the operands of a packet are those its opcode takes, a frame carries its type's tag, and the slots of a
control byte are the codes packed into it. -/
theorem decodeOfEncode : Obligations.DecodeOfEncode := by
  intro i hwf
  cases i with
  | keyld k => exact decode_encode_of_decodeOperands rfl (dif_pos k.length_toList)
  | pack a b c d => exact decode_encode_of_decodeOperands rfl rfl
  | parse txt =>
    exact decode_encode_of_decodeOperands rfl (if_pos (EncodedForm.length_byte (of_decide_eq_true hwf)).symm)
  | unpack ctrl => exact decode_encode_of_decodeOperands rfl rfl
  | encode ft id n pl =>
    exact decode_encode_of_decodeOperands rfl (if_pos (EncodedForm.length_byte (of_decide_eq_true hwf)).symm)
  | decode rxbuf =>
    exact decode_encode_of_decodeOperands rfl (if_pos (EncodedForm.length_byte (of_decide_eq_true hwf)).symm)
  | ctrltx id ctrl => exact decode_encode_of_decodeOperands rfl rfl
  | frameMeasure id n ct g => exact decodeFrame_buildFrame Config.chip .measure rfl
  | frameControl id n ct g => exact decodeFrame_buildFrame Config.chip .control rfl
  | ctrlByte s0 s1 s2 s3 =>
    simp only [encode, decode, decodeCtrlByte, slot0_packCodes, slot1_packCodes, slot2_packCodes, slot3_packCodes]

/-- Settles O40, by what each of the three decoders can read. -/
theorem encodeOfDecode : Obligations.EncodeOfDecode := by
  intro e i h
  cases e with
  | fmtP cmd =>
    obtain ⟨op, operands, rfl, hoperands⟩ := decodePacket_ok h
    exact encode_of_decodeOperands hoperands
  | fmtF buf =>
    obtain ⟨ty, ⟨t, id, n, ct, g⟩, rfl, ht, rfl⟩ := decodeFrame_ok h
    subst ht
    cases ty <;> exact ⟨rfl, rfl⟩
  | fmtC ctrl =>
    cases h
    exact ⟨congrArg Encoded.fmtC (packCodes_slots ctrl), rfl⟩

/-- Settles O41: eight closed packets, decoded by computing. -/
theorem decodedWords : Obligations.DecodedWords := by
  unfold Obligations.DecodedWords
  decide

/-! ### A command presented first (R43, R65; log entries 4 and 12) -/

/-- Settles O30: the word's input stands first, so the step accepts it, and accepting it is executing what it decodes to. -/
theorem tableWordRunsNext : Obligations.TableWordRunsNext := by
  intro s nbits w i h
  have hdecode : decode (tableEncoded nbits w) = .ok i := by
    unfold decodeTableWord at h
    split at h
    · cases h
      assumption
    · cases h
  exact (step_of_inbox_cons rfl).trans (acceptInput_command_ok hdecode s)

/-- The family EncodedForm holds of every instruction. -/
theorem encodedForm (i : Instr) : EncodedForm.Statement i := by
  cases i with
  | keyld k => exact EncodedForm.keyld k
  | pack a b c d => exact EncodedForm.pack a b c d
  | parse txt => exact EncodedForm.parse txt
  | unpack ctrl => exact EncodedForm.unpack ctrl
  | encode ft id n pl => exact EncodedForm.encode ft id n pl
  | decode rxbuf => exact EncodedForm.decode rxbuf
  | ctrltx id ctrl => exact EncodedForm.ctrltx id ctrl
  | frameMeasure id n ct g => exact EncodedForm.frameMeasure id n ct g
  | frameControl id n ct g => exact EncodedForm.frameControl id n ct g
  | ctrlByte s0 s1 s2 s3 => exact EncodedForm.ctrlByte s0 s1 s2 s3

/-- A packet that decodes is lawful: it is the encoding of a well-formed instruction (`encodeOfDecode`). -/
theorem lawfulPacket_of_decode_ok {cmd : Packet} {i : Instr} (h : decode (.fmtP cmd) = .ok i) : lawfulPacket cmd := by
  obtain ⟨hencode, hwf⟩ := encodeOfDecode _ i h
  simpa only [hencode] using encodedForm i hwf

/-- A lawful packet has an opcode of R57 and operands that this opcode takes. -/
theorem decode_ok_of_lawfulPacket {cmd : Packet} (h : lawfulPacket cmd) : ∃ i, decode (.fmtP cmd) = .ok i := by
  obtain _ | ⟨b, operands⟩ := cmd
  · simp [lawfulPacket] at h
  simp only [lawfulPacket, List.getElem?_cons_zero, Option.some.injEq, List.length_cons] at h
  suffices ∃ op i, b = opcodeByte op ∧ decodeOperands op operands = some i by
    obtain ⟨op, i, rfl, hi⟩ := this
    exact ⟨i, decodePacket_opcodeByte_of_some hi⟩
  obtain ⟨hb, hlen⟩ | ⟨hb, hlen⟩ | ⟨hb, m, hm, hlen⟩ | ⟨hb, hlen⟩ | ⟨hb, l, hl, hlen⟩ | ⟨hb, m, hm, hlen⟩ |
    ⟨hb, hlen⟩ := h
  · exact ⟨.keyld, _, hb, dif_pos (by omega)⟩
  · match operands, hlen with
    | [a, b, c, d], _ => exact ⟨.pack, _, hb, rfl⟩
  · match operands, hm, hlen with
    | m' :: txt, hm, hlen =>
      cases hm
      exact ⟨.parse, _, hb, if_pos (by simp only [List.length_cons] at hlen; omega)⟩
  · match operands, hlen with
    | [ctrl], _ => exact ⟨.unpack, _, hb, rfl⟩
  · match operands, hl, hlen with
    | ft :: id :: n :: l' :: pl, hl, hlen =>
      cases hl
      exact ⟨.encode, _, hb, if_pos (by simp only [List.length_cons] at hlen; omega)⟩
  · match operands, hm, hlen with
    | m' :: rxbuf, hm, hlen =>
      cases hm
      exact ⟨.decode, _, hb, if_pos (by simp only [List.length_cons] at hlen; omega)⟩
  · match operands, hlen with
    | [id, ctrl], _ => exact ⟨.ctrltx, _, hb, rfl⟩

theorem packOp_of_not_le {a b c d : Byte} (h : ¬(a.toNat ≤ 3 ∧ b.toNat ≤ 3 ∧ c.toNat ≤ 3 ∧ d.toNat ≤ 3)) :
    packOp a b c d = .error .badOperand :=
  if_pos (by simp only [GT.gt, BitVec.lt_def, BitVec.toNat_ofNat]; omega)

theorem encodeOp_of_out_of_range (c : Config) (key : Option Key) {ft : Byte} (id n : Byte) {pl : Packet}
    (h : ¬(ft.toNat ≤ 1 ∧ pl.length ≤ 8)) : encodeOp c key ft id n pl = .error .badOperand := by
  unfold encodeOp
  cases hft : typeOfSelector ft with
  | none => rfl
  | some ty =>
    have hle : ¬ft.toNat > 1 := fun hgt => by simp [typeOfSelector_eq_none.mpr hgt] at hft
    exact if_pos (by omega)

/-- R65 c: an operand out of range is BadOperand and nothing else. -/
theorem exec_of_not_operandsInRange {i : Instr} (h : ¬operandsInRange i) (s : State) :
    exec i s = .next (s.respond [0x12#8]) := by
  cases i with
  | pack a b c d => exact (answer_eq _ s).trans (by rw [packOp_of_not_le h]; rfl)
  | encode ft id n pl => exact (answer_eq _ s).trans (by rw [encodeOp_of_out_of_range _ _ id n h]; rfl)
  | _ => exact absurd trivial h

/-- Settles O31: a packet is lawful exactly when it decodes, and the decoder's one failure is BadCommand. -/
theorem illegalPackets : Obligations.IllegalPackets := by
  intro s rest cmd hq
  have hstep := step_of_inbox_cons hq
  refine ⟨fun hunlawful => ?_, fun hlawful => ?_⟩
  · cases hdecode : decode (.fmtP cmd) with
    | ok i => exact absurd (lawfulPacket_of_decode_ok hdecode) hunlawful
    | error f =>
      cases decodePacket_error hdecode
      exact hstep.trans (acceptInput_command_error hdecode _)
  · obtain ⟨i, hdecode⟩ := decode_ok_of_lawfulPacket hlawful
    refine ⟨i, hdecode, fun hrange => ?_⟩
    exact hstep.trans ((acceptInput_command_ok hdecode _).trans (exec_of_not_operandsInRange hrange _))

/-- A received buffer is accepted as the command DECODE of it, whatever its length (R63, R87). -/
theorem acceptInput_buffer (buf : Packet) (s : State) : acceptInput (.command (.fmtF buf)) s = exec (.decode buf) s := by
  have hexec : exec (.decode buf) s = answer (decodeOp Config.chip s.loadedKey buf) s := rfl
  cases hsplit : splitFrame buf with
  | none =>
    rw [acceptInput_command_error (e := .fmtF buf) (decodeFrame_of_split_none hsplit), hexec, decodeOp, hsplit]
    rfl
  | some f =>
    cases htype : typeOfTag Config.chip f.t with
    | none =>
      rw [acceptInput_command_error (e := .fmtF buf) (decodeFrame_of_type_none hsplit htype), hexec, decodeOp, hsplit]
      simp only [htype]
      rfl
    | some ty =>
      rw [acceptInput_command_ok (e := .fmtF buf) (decodeFrame_of_type_some hsplit htype), hexec, decodeOp, hsplit]
      simp only [htype]
      cases ty <;> rfl

/-- Settles O9: both presentations are the command DECODE of the buffer, and DECODE of a buffer that is not 12 bytes long is
BadLength. -/
theorem bufferAgreesWithDecodePacket : Obligations.BufferAgreesWithDecodePacket := by
  intro s buf rest
  have hstep : ∀ e, step (s.withInbox (.command e :: rest)) = acceptInput (.command e) (s.withInbox rest) :=
    fun _ => step_of_inbox_cons rfl
  refine ⟨fun hlen => ?_, fun hlen => ?_⟩
  · have hpacket : decode (.fmtP ([0x11#8, BitVec.ofNat 8 buf.length] ++ buf)) = .ok (.decode buf) :=
      decodeOfEncode (.decode buf) (decide_eq_true hlen)
    rw [hstep, hstep, acceptInput_buffer, acceptInput_command_ok hpacket]
  · have hsplit : splitFrame buf = none := splitFrame_eq_none.mpr (by omega)
    exact (hstep _).trans (acceptInput_command_error (e := .fmtF buf) (decodeFrame_of_split_none hsplit) _)

/-! ### The control byte (R54, R69) -/

/-- Four slots laid into a byte are its base-4 digits, slot 0 the most significant. -/
theorem packCodes_slotByte (a b c d : Slot) :
    packCodes (slotByte a) (slotByte b) (slotByte c) (slotByte d) =
      BitVec.ofNat 8 (64 * a.toNat + 16 * b.toNat + 4 * c.toNat + d.toNat) := by
  revert a b c d
  decide

theorem packOp_slotByte (a b c d : Slot) :
    packOp (slotByte a) (slotByte b) (slotByte c) (slotByte d) =
      .ok (packCodes (slotByte a) (slotByte b) (slotByte c) (slotByte d)) := by
  have hle (x : Slot) : ¬slotByte x > 3#8 := BitVec.not_lt.mpr (slotByte_le x)
  exact if_neg (by simp only [hle, or_self, not_false_iff])

/-- Settles O5: the byte is the one the encoder writes for the four slots. -/
theorem controlByteRow : Obligations.ControlByteRow := by
  intro s0 s1 s2 s3 s
  rw [← packCodes_slotByte]
  exact ⟨decodeOfEncode (.ctrlByte s0 s1 s2 s3) rfl, (answer_eq _ s).trans (by rw [packOp_slotByte]; rfl)⟩

/-! ### The payload of a Measurement (R16, R51) -/

/-- The two's-complement reading of the pattern of an integer in range is that integer. -/
theorem sext16_ofInt {v : Int} (hlo : -32768 ≤ v) (hhi : v ≤ 32767) : sext16 (BitVec.ofInt 16 v).toNat = v := by
  rw [BitVec.toNat_ofInt, sext16]
  split <;> omega

theorem sext16_inRange {v : Nat} (h : v < 65536) : -32768 ≤ sext16 v ∧ sext16 v ≤ 32767 := by
  unfold sext16
  split <;> omega

theorem inRange_iff (m : Measurement) :
    m.inRange = true ↔ -32768 ≤ m.temperatureCenti ∧ m.temperatureCenti ≤ 32767 ∧ m.humidityCenti ≤ 65535 ∧
      m.pressureDecihpa ≤ 65535 ∧ m.lux ≤ 65535 := decide_eq_true_iff

theorem measurementOf_inRange (pt : Block8) : (measurementOf pt).inRange = true := by
  obtain ⟨hlo, hhi⟩ := sext16_inRange (ube16_lt pt[0] pt[1])
  exact (inRange_iff _).mpr ⟨hlo, hhi, Nat.le_of_lt_succ (ube16_lt ..), Nat.le_of_lt_succ (ube16_lt ..),
    Nat.le_of_lt_succ (ube16_lt ..)⟩

theorem measurementPayload_measurementOf (pt : Block8) : measurementPayload (measurementOf pt) = pt.toList := by
  simp only [measurementPayload, measurementOf, ofInt_sext16 (ube16_lt _ _), be16_ube16, block8_toList]
  rfl

/-- Settles O12: each field is two bytes that stand for its pattern (`be16_eq`), and the pattern of a field in range stands for
the field. -/
theorem measurementFields : Obligations.MeasurementFields := by
  refine ⟨fun m hm => ?_, fun pt => ⟨measurementOf_inRange pt, measurementPayload_measurementOf pt⟩⟩
  obtain ⟨hlo, hhi, hH, hP, hX⟩ := (inRange_iff m).mp hm
  obtain ⟨t1, t0, ht, htv⟩ := be16_eq (BitVec.ofInt 16 m.temperatureCenti)
  obtain ⟨h1, h0, hh, hhv⟩ := be16_eq (BitVec.ofNat 16 m.humidityCenti)
  obtain ⟨p1, p0, hp, hpv⟩ := be16_eq (BitVec.ofNat 16 m.pressureDecihpa)
  obtain ⟨x1, x0, hx, hxv⟩ := be16_eq (BitVec.ofNat 16 m.lux)
  rw [BitVec.toNat_ofNat, Nat.mod_eq_of_lt (by omega)] at hhv hpv hxv
  have htemp : ((ube16 t1 t0 : Nat) : Int) = m.temperatureCenti % 65536 := by
    rw [htv, BitVec.toNat_ofInt]
    omega
  have hback : measurementOf #v[t1, t0, h1, h0, p1, p0, x1, x0] = m := by
    have hsext : sext16 (ube16 t1 t0) = m.temperatureCenti := by rw [htv, sext16_ofInt hlo hhi]
    exact congr (congr (congr (congrArg Measurement.mk hsext) hhv) hpv) hxv
  exact ⟨#v[t1, t0, h1, h0, p1, p0, x1, x0], by simp [measurementPayload, ht, hh, hp, hx], htemp, hhv, hpv, hxv, hback⟩

/-! ### SETORDER, issued by the host (R66, R70) -/

theorem parseOp_error {c : Config} {txt : Packet} {f : Failure} (h : parseOp c txt = .error f) : f = .invalidOrder := by
  unfold parseOp at h
  split at h
  · split at h
    · cases h
    · exact (Except.error.inj h).symm
  · exact (Except.error.inj h).symm

/-- Settles O38, by the two outcomes of PARSE. -/
theorem setOrderMacro : Obligations.SetOrderMacro := by
  intro id txt s
  have hexec : exec (.parse txt) s = .next (s.respond (responseOf (oneByte (parseOp Config.chip txt)))) := answer_eq _ s
  cases hparse : parseOp Config.chip txt with
  | ok ctrl =>
    have hok : exec (.parse txt) s = .next (s.respond [0x00#8, ctrl]) := by rw [hexec, hparse]; rfl
    exact .inl ⟨ctrl, hok, by simp [setOrder, hok, setOrderNext, statusOk]⟩
  | error f =>
    cases parseOp_error hparse
    have hinvalid : exec (.parse txt) s = .next (s.respond [0x04#8]) := by rw [hexec, hparse]; rfl
    exact .inr ⟨hinvalid, by simp [setOrder, hinvalid, setOrderNext]⟩

end Sys2Proof.Machine


/-! ## The sensor-order bit-packer: PACK, PARSE and UNPACK (spec/40_sensor_order.md)

What the three operations answer, said once; that the slots of an order's byte determine the order; and when PARSE takes a
text. The four statements put these together. -/

namespace Sys2Proof.Machine

/-! ### What a packer instruction answers (R59 to R61) -/

theorem exec_pack_of_ok {a b c d x : Byte} (h : packOp a b c d = .ok x) (s : State) :
    exec (.pack a b c d) s = .next (s.respond [0x00#8, x]) :=
  (answer_eq _ s).trans (by rw [h]; rfl)

theorem exec_parse_of_ok {txt : Packet} {x : Byte} (h : parseOp Config.chip txt = .ok x) (s : State) :
    exec (.parse txt) s = .next (s.respond [0x00#8, x]) :=
  (answer_eq _ s).trans (by rw [h]; rfl)

theorem exec_parse_of_error {txt : Packet} {f : Failure} (h : parseOp Config.chip txt = .error f) (s : State) :
    exec (.parse txt) s = .next (s.respond [0x04#8]) := by
  cases parseOp_error h
  exact (answer_eq _ s).trans (by rw [h]; rfl)

theorem exec_unpack (ctrl : Byte) (s : State) :
    exec (.unpack ctrl) s = .next (s.respond (0x00#8 :: unpackOp Config.chip ctrl)) :=
  answer_eq (.ok (unpackOp Config.chip ctrl)) s

/-- The response that an outcome adds to a state can be read off. -/
theorem next_respond_inj {s : State} {r r' : Packet} :
    (Host.Outcome.next (s.respond r) : StepOutcome) = .next (s.respond r') ↔ r = r' := by
  refine ⟨fun h => ?_, fun h => by rw [h]⟩
  have hout : s.outbox ++ [r] = s.outbox ++ [r'] := congrArg State.outbox (Host.Outcome.next.inj h)
  simpa using hout

/-! ### Slots as numbers (R54, R69) -/

/-- An operand in range is the byte of a slot. -/
theorem exists_slotByte {a : Byte} (h : a.toNat ≤ 3) : ∃ x : Slot, slotByte x = a := by
  refine ⟨BitVec.ofNat 2 a.toNat, BitVec.eq_of_toNat_eq ?_⟩
  simp only [slotByte, BitVec.toNat_setWidth, BitVec.toNat_ofNat]
  omega

@[simp] theorem slotByte_toNat (x : Slot) : (slotByte x).toNat = x.toNat :=
  BitVec.toNat_setWidth_of_le (by decide)

theorem slotByte_eq_ofNat (x : Slot) : slotByte x = BitVec.ofNat 8 x.toNat := (BitVec.ofNat_toNat 8 x).symm

theorem slot0_toNat (ctrl : Byte) : (slot0 ctrl).toNat = ctrl.toNat / 64 := by
  have h := ctrl.isLt
  simp only [slot0, BitVec.extractLsb'_toNat, Nat.shiftRight_eq_div_pow]
  omega

theorem slot1_toNat (ctrl : Byte) : (slot1 ctrl).toNat = ctrl.toNat / 16 % 4 := by
  simp [slot1, BitVec.extractLsb'_toNat, Nat.shiftRight_eq_div_pow]

theorem slot2_toNat (ctrl : Byte) : (slot2 ctrl).toNat = ctrl.toNat / 4 % 4 := by
  simp [slot2, BitVec.extractLsb'_toNat, Nat.shiftRight_eq_div_pow]

theorem slot3_toNat (ctrl : Byte) : (slot3 ctrl).toNat = ctrl.toNat % 4 := by
  simp [slot3, BitVec.extractLsb'_toNat, Nat.shiftRight_eq_div_pow]

/-- Settles O1: operands in range are the bytes of four slots, which lie in the control byte as its base-4 digits; others
are out of PACK's range (`exec_of_not_operandsInRange`). -/
theorem packResult : Obligations.PackResult := by
  intro a b c d s
  refine ⟨fun ⟨ha, hb, hc, hd⟩ => ?_, fun h => exec_of_not_operandsInRange (i := .pack a b c d) h s⟩
  obtain ⟨w, rfl⟩ := exists_slotByte ha
  obtain ⟨x, rfl⟩ := exists_slotByte hb
  obtain ⟨y, rfl⟩ := exists_slotByte hc
  obtain ⟨z, rfl⟩ := exists_slotByte hd
  simp only [exec_pack_of_ok (packOp_slotByte w x y z), packCodes_slotByte, slotByte_toNat]

/-- Settles O3: the slots of the byte are its base-4 digits, and each is the code of the kind it is read as. -/
theorem unpackResult : Obligations.UnpackResult := by
  intro ctrl s
  refine ⟨kindOf Config.chip (slot0 ctrl), kindOf Config.chip (slot1 ctrl), kindOf Config.chip (slot2 ctrl),
    kindOf Config.chip (slot3 ctrl), ?_⟩
  simp only [kindCode_kindOf, ← slot0_toNat, ← slot1_toNat, ← slot2_toNat, ← slot3_toNat, exec_unpack, unpackOp,
    slotByte_eq_ofNat, and_self]

/-! ### The byte of an order (R69, R70, R72) -/

theorem kindCode_eq_iff {c : Config} {k : SensorKind} {x : Slot} : kindCode c k = x ↔ k = kindOf c x :=
  ⟨fun h => by rw [← h, kindOf_kindCode], fun h => by rw [h, kindCode_kindOf]⟩

@[simp] theorem slot0_orderByte (c : Config) (k0 k1 k2 k3 : SensorKind) :
    slot0 (orderByte c k0 k1 k2 k3) = kindCode c k0 := slot0_packCodes ..

@[simp] theorem slot1_orderByte (c : Config) (k0 k1 k2 k3 : SensorKind) :
    slot1 (orderByte c k0 k1 k2 k3) = kindCode c k1 := slot1_packCodes ..

@[simp] theorem slot2_orderByte (c : Config) (k0 k1 k2 k3 : SensorKind) :
    slot2 (orderByte c k0 k1 k2 k3) = kindCode c k2 := slot2_packCodes ..

@[simp] theorem slot3_orderByte (c : Config) (k0 k1 k2 k3 : SensorKind) :
    slot3 (orderByte c k0 k1 k2 k3) = kindCode c k3 := slot3_packCodes ..

/-- A byte is that of exactly one order: the kinds of its four slots. -/
theorem orderByte_eq_iff {c : Config} {k0 k1 k2 k3 : SensorKind} {ctrl : Byte} :
    orderByte c k0 k1 k2 k3 = ctrl ↔
      k0 = kindOf c (slot0 ctrl) ∧ k1 = kindOf c (slot1 ctrl) ∧ k2 = kindOf c (slot2 ctrl) ∧ k3 = kindOf c (slot3 ctrl) := by
  constructor
  · rintro rfl
    simp
  · rintro ⟨rfl, rfl, rfl, rfl⟩
    simp only [orderByte, kindCode_kindOf, packCodes_slots]

/-! ### The texts that PARSE takes (R55, R70) -/

theorem kindOfChar_eq_some {ch : Byte} {k : SensorKind} : kindOfChar ch = some k ↔ spells ch k := by
  constructor
  · fun_cases kindOfChar ch <;> rintro ⟨⟩ <;> assumption
  · intro h
    cases k <;> rcases h with rfl | rfl <;> rfl

/-- PARSE sees of a text the kinds its characters stand for, and takes it when they are four. -/
theorem parseOp_eq_ok {c : Config} {txt : Packet} {x : Byte} :
    parseOp c txt = .ok x ↔
      ∃ k0 k1 k2 k3, txt.map kindOfChar = [some k0, some k1, some k2, some k3] ∧ orderByte c k0 k1 k2 k3 = x := by
  constructor
  · intro h
    unfold parseOp at h
    split at h
    · split at h
      · rename_i h0 h1 h2 h3
        exact ⟨_, _, _, _, by simp only [List.map, h0, h1, h2, h3], Except.ok.inj h⟩
      · cases h
    · cases h
  · rintro ⟨k0, k1, k2, k3, hkinds, rfl⟩
    simp only [List.map_eq_cons_iff, List.map_eq_nil_iff] at hkinds
    obtain ⟨ch0, _, rfl, h0, ch1, _, rfl, h1, ch2, _, rfl, h2, ch3, _, rfl, h3, rfl⟩ := hkinds
    simp only [parseOp, h0, h1, h2, h3]

theorem parseOp_letters (c : Config) (k0 k1 k2 k3 : SensorKind) :
    parseOp c [letter k0, letter k1, letter k2, letter k3] = .ok (orderByte c k0 k1 k2 k3) :=
  parseOp_eq_ok.mpr ⟨k0, k1, k2, k3, by simp, rfl⟩

/-- PARSE rejects exactly the other texts, with one reason (`parseOp_error`). -/
theorem parseOp_eq_error {c : Config} {txt : Packet} :
    parseOp c txt = .error .invalidOrder ↔
      ¬∃ k0 k1 k2 k3, txt.map kindOfChar = [some k0, some k1, some k2, some k3] := by
  cases h : parseOp c txt with
  | ok x =>
    obtain ⟨k0, k1, k2, k3, hkinds, -⟩ := parseOp_eq_ok.mp h
    simp [hkinds]
  | error f =>
    cases parseOp_error h
    refine iff_of_true rfl ?_
    rintro ⟨k0, k1, k2, k3, hkinds⟩
    cases h.symm.trans (parseOp_eq_ok.mpr ⟨k0, k1, k2, k3, hkinds, rfl⟩)

/-- Settles O2: letters are the characters that stand for a kind (`kindOfChar_eq_some`); a taken text has four of them, and
the order's byte holds their codes in its slots. -/
theorem parseResult : Obligations.ParseResult := by
  refine ⟨fun ch0 ch1 ch2 ch3 k0 k1 k2 k3 s h0 h1 h2 h3 => ?_, fun txt s hbad => ?_⟩
  · simp only [← kindOfChar_eq_some] at h0 h1 h2 h3
    have hparse : parseOp Config.chip [ch0, ch1, ch2, ch3] = .ok (orderByte Config.chip k0 k1 k2 k3) :=
      parseOp_eq_ok.mpr ⟨k0, k1, k2, k3, by simp only [List.map, h0, h1, h2, h3], rfl⟩
    exact ⟨_, exec_parse_of_ok hparse s, slot0_orderByte .., slot1_orderByte .., slot2_orderByte .., slot3_orderByte ..⟩
  · refine exec_parse_of_error (parseOp_eq_error.mpr ?_) s
    rintro ⟨k0, k1, k2, k3, hkinds⟩
    obtain hlen | ⟨ch, hch, hno⟩ := hbad
    · exact hlen (by simpa using congrArg List.length hkinds)
    · have hkind : kindOfChar ch ∈ [some k0, some k1, some k2, some k3] := hkinds ▸ List.mem_map_of_mem hch
      have hnone : kindOfChar ch = none := Option.eq_none_iff_forall_ne_some.mpr fun k => mt kindOfChar_eq_some.mp (hno k)
      simp [hnone] at hkind

/-! ### The laws of the packer (R72) -/

theorem kindOfChar_foldCase (ch : Byte) : kindOfChar (foldCase ch) = kindOfChar ch := by
  revert ch
  decide

/-- PARSE answers alike on texts whose characters stand for the same kinds. -/
theorem parseOp_congr (c : Config) {txt txt' : Packet} (h : txt.map kindOfChar = txt'.map kindOfChar) :
    parseOp c txt = parseOp c txt' := by
  cases htxt : parseOp c txt with
  | ok x => exact (parseOp_eq_ok.mpr (h ▸ parseOp_eq_ok.mp htxt)).symm
  | error f =>
    cases parseOp_error htxt
    exact (parseOp_eq_error.mpr (h ▸ parseOp_eq_error.mp htxt)).symm

/-- R72 c: the case of a letter is not seen. -/
theorem exec_parse_of_foldCase_eq {txt txt' : Packet} (h : txt.map foldCase = txt'.map foldCase) (s : State) :
    exec (.parse txt) s = exec (.parse txt') s := by
  have hfold (t : Packet) : (t.map foldCase).map kindOfChar = t.map kindOfChar := by
    simp only [List.map_map, Function.comp_def, kindOfChar_foldCase]
  have hkinds : txt.map kindOfChar = txt'.map kindOfChar := by rw [← hfold txt, h, hfold]
  have hparse := parseOp_congr Config.chip hkinds
  simp only [exec, execParse, hparse]

/-- PARSE of four upper-case letters answers a byte exactly when they are the kinds of its slots. -/
theorem exec_parse_letters_iff {k0 k1 k2 k3 : SensorKind} {ctrl : Byte} {s : State} :
    exec (.parse [letter k0, letter k1, letter k2, letter k3]) s = .next (s.respond [0x00#8, ctrl]) ↔
      k0 = kindOf Config.chip (slot0 ctrl) ∧ k1 = kindOf Config.chip (slot1 ctrl) ∧
        k2 = kindOf Config.chip (slot2 ctrl) ∧ k3 = kindOf Config.chip (slot3 ctrl) := by
  rw [exec_parse_of_ok (parseOp_letters ..), next_respond_inj, ← orderByte_eq_iff]
  simp

/-- Settles O4: (a) and (b) are the one order of a byte (`exec_parse_letters_iff`), (c) is that PARSE sees no case, and in (d)
slot 0 holds the codes of two different kinds. -/
theorem packerLaws : Obligations.PackerLaws := by
  refine ⟨fun ctrl s => ?_, fun ctrl s => ?_, fun _ _ s h => exec_parse_of_foldCase_eq h s, fun s => ?_⟩
  · refine ⟨_, _, _, _, _, _, _, _, exec_unpack ctrl s, ?_, exec_parse_letters_iff.mpr ⟨rfl, rfl, rfl, rfl⟩⟩
    exact exec_pack_of_ok ((packOp_slotByte ..).trans (by rw [packCodes_slots])) s
  · refine ⟨_, _, _, _, exec_parse_letters_iff.mpr ⟨rfl, rfl, rfl, rfl⟩, fun _ _ _ _ => exec_parse_letters_iff.mp⟩
  · refine ⟨_, _, fun h => ?_, exec_parse_of_ok (parseOp_letters _ .temperature .light .humidity .pressure) s,
      exec_parse_of_ok (parseOp_letters _ .pressure .humidity .light .temperature) s⟩
    obtain ⟨hkind, -⟩ := orderByte_eq_iff.mp h
    simp at hkind

end Sys2Proof.Machine


/-! ## The cipher core: the combination and the reuse of a keystream (spec/41_cipher_core.md)

What the combination does with one keystream on two data, and what ENCODE answers on a keyed block; the second statement puts
the two together. -/

namespace Sys2Proof.Machine

/-! ### The combination (R75, R76) -/

/-- Settles O14, by the rules of `xor8`: its bytes (`xor8_getElem`) and its reversal (`xor8_xor8`). -/
theorem xorReversible : Obligations.XorReversible :=
  fun x ks => ⟨fun i => xor8_getElem x ks i i.isLt, xor8_xor8 x ks⟩

/-- A keystream used for two data cancels in the exclusive or of what it gives (R78). -/
theorem xor8_xor_xor8_same (x y ks : Block8) (i : Fin 8) : (xor8 x ks)[i] ^^^ (xor8 y ks)[i] = x[i] ^^^ y[i] :=
  calc
    (xor8 x ks)[i] ^^^ (xor8 y ks)[i] = (x[i] ^^^ ks[i]) ^^^ (y[i] ^^^ ks[i]) := by simp
    _ = (x[i] ^^^ ks[i]) ^^^ (ks[i] ^^^ y[i]) := by rw [BitVec.xor_comm y[i]]
    _ = x[i] ^^^ y[i] := by rw [BitVec.xor_assoc, ← BitVec.xor_assoc ks[i], BitVec.xor_self, BitVec.zero_xor]

/-! ### ENCODE on a keyed block (R62, R85) -/

theorem exists_typeOfSelector_eq_some {ft : Byte} (h : ft.toNat ≤ 1) : ∃ ty, typeOfSelector ft = some ty :=
  Option.ne_none_iff_exists'.mp fun hnone => absurd (typeOfSelector_eq_none.mp hnone) (Nat.not_lt.mpr h)

theorem encodeOp_some {ft : Byte} {ty : FrameType} {pl : Packet} (c : Config) (k : Key) (id n : Byte)
    (hty : typeOfSelector ft = some ty) (hlen : pl.length ≤ 8) :
    encodeOp c (some k) ft id n pl = .ok (sealFrame c k ty id n (padPayload c pl)) := by
  simp only [encodeOp, hty, Nat.not_lt.mpr hlen, if_false]

theorem exec_encode_of_valid {ft : Byte} {ty : FrameType} {pl : Packet} {s : State} (id n : Byte)
    (hty : typeOfSelector ft = some ty) (hlen : pl.length ≤ 8) (hvalid : s.keyValid = true) :
    exec (.encode ft id n pl) s =
      .next (s.respond (0x00#8 :: sealFrame Config.chip s.key ty id n (padPayload Config.chip pl))) :=
  (answer_eq _ s).trans (by rw [loadedKey_of_valid hvalid, encodeOp_some _ _ id n hty hlen]; rfl)

/-- Settles O15: the two ciphertexts are the padded payloads under one keystream, as KSGEN reads no more than the common key,
type, id and nonce; it cancels (`xor8_xor_xor8_same`). -/
theorem keystreamReuse : Obligations.KeystreamReuse := by
  intro s s' ft id n pl pl' hvalid hvalid' hkey hft hlen hlen'
  obtain ⟨ty, hty⟩ := exists_typeOfSelector_eq_some hft
  have hexec' := exec_encode_of_valid id n hty hlen' hvalid'
  rw [hkey] at hexec'
  exact ⟨tagOf Config.chip ty, _, _, _, _, padPayload Config.chip pl, padPayload Config.chip pl',
    padPayload_isPadded _ pl, padPayload_isPadded _ pl', exec_encode_of_valid id n hty hlen hvalid, hexec',
    xor8_xor_xor8_same _ _ (ksgen Config.chip s.key (tagOf Config.chip ty) id n)⟩

end Sys2Proof.Machine


/-! ## The keyed-MAC core: the one tag byte that passes (spec/42_mac_core.md)

What DECODE answers to a frame on a keyed block, which turns on the comparison of one byte; the statement reads both sides of
it. -/

namespace Sys2Proof.Machine

theorem exists_tagOf_eq {c : Config} {t : Byte} (h : t = c.tagMeasure ∨ t = tagControl c) : ∃ ty, tagOf c ty = t := by
  obtain rfl | rfl := h
  · exact ⟨.measure, rfl⟩
  · exact ⟨.control, rfl⟩

/-- DECODE of a frame on a keyed block answers what opening it gives (R87). -/
theorem exec_decode_frame_of_valid (ty : FrameType) (id n g : Byte) (ct : Block8) {s : State} (h : s.keyValid = true) :
    exec (.decode ([tagOf Config.chip ty, id, n] ++ ct.toList ++ [g])) s =
      .next (s.respond (responseOf (openFrame Config.chip (some s.key) ty id n ct g))) :=
  (answer_eq _ s).trans (by rw [decodeOp_frame, loadedKey_of_valid h])

/-- R81: the received byte that is the tag of the plaintext passes. -/
theorem exec_decode_frame_of_tag_eq {ty : FrameType} {id n g : Byte} {ct : Block8} {s : State} (hvalid : s.keyValid = true)
    (htag : Config.chip.tag s.key (tagOf Config.chip ty) id n (plaintextOf Config.chip s.key ty id n ct) = g) :
    exec (.decode ([tagOf Config.chip ty, id, n] ++ ct.toList ++ [g])) s =
      .next (s.respond (0x00#8 :: frameResult ty id (plaintextOf Config.chip s.key ty id n ct))) := by
  rw [exec_decode_frame_of_valid ty id n g ct hvalid, openFrame_some, if_pos htag]
  rfl

/-- R81: no other received byte passes. -/
theorem exec_decode_frame_of_tag_ne {ty : FrameType} {id n g : Byte} {ct : Block8} {s : State} (hvalid : s.keyValid = true)
    (htag : Config.chip.tag s.key (tagOf Config.chip ty) id n (plaintextOf Config.chip s.key ty id n ct) ≠ g) :
    exec (.decode ([tagOf Config.chip ty, id, n] ++ ct.toList ++ [g])) s = .next (s.respond [0x03#8]) := by
  rw [exec_decode_frame_of_valid ty id n g ct hvalid, openFrame_some, if_neg htag]
  rfl

/-- Settles O16: the byte is the tag of the plaintext that the ciphertext stands for, which TAG gives as a function of key,
header and plaintext and so without the received byte. -/
theorem exactlyOneTagPasses : Obligations.ExactlyOneTagPasses := by
  intro s t id n ct hvalid ht
  obtain ⟨ty, rfl⟩ := exists_tagOf_eq ht
  exact ⟨_, ⟨_, exec_decode_frame_of_tag_eq hvalid rfl⟩, fun g' hne => exec_decode_frame_of_tag_ne hvalid hne.symm⟩

end Sys2Proof.Machine


/-! ## The frame serializer/deserializer: ENCODE, DECODE and the rows of a frame (spec/43_frame_codec.md)

What ENCODE builds and what DECODE answers, said once for each way they can end; that DECODE undoes ENCODE under one key; and
that a row of the opcode table for a frame is DECODE of that frame. -/

namespace Sys2Proof.Machine

/-! ### ENCODE (R53, R85, R86) -/

theorem typeOfSelector_eq_some {ft : Byte} {ty : FrameType} (h : typeOfSelector ft = some ty) : selectorOf ty = ft := by
  unfold typeOfSelector at h
  split at h
  case isTrue hzero =>
    cases h
    exact hzero.symm
  case isFalse =>
    split at h
    case isTrue hone =>
      cases h
      exact hone.symm
    case isFalse => cases h

/-- A selector in range is that of a frame type (R50). -/
theorem exists_selectorOf_eq {ft : Byte} (h : ft.toNat ≤ 1) : ∃ ty, selectorOf ty = ft :=
  (exists_typeOfSelector_eq_some h).imp fun _ => typeOfSelector_eq_some

theorem tagOf_eq_ite (c : Config) (ty : FrameType) :
    tagOf c ty = if selectorOf ty = 0x00#8 then c.tagMeasure else tagControl c := by
  cases ty <;> rfl

theorem xor8_toList (x ks : Block8) : (xor8 x ks).toList = List.ofFn fun i : Fin 8 => x[i] ^^^ ks[i] :=
  Vector.toList_ofFn

/-- The bytes of a frame in the order of R35. -/
theorem sealFrame_eq (c : Config) (k : Key) (ty : FrameType) (id n : Byte) (pt : Block8) :
    sealFrame c k ty id n pt =
      [tagOf c ty, id, n] ++ List.ofFn (fun i : Fin 8 => pt[i] ^^^ (c.ks k (tagOf c ty) id n)[i]) ++
        [c.tag k (tagOf c ty) id n pt] := by
  rw [← xor8_toList]
  rfl

theorem exec_encode_of_not_valid {ft : Byte} {pl : Packet} {s : State} (id n : Byte) (hft : ft.toNat ≤ 1)
    (hlen : pl.length ≤ 8) (hvalid : s.keyValid = false) :
    exec (.encode ft id n pl) s = .next (s.respond [0x10#8]) := by
  obtain ⟨ty, hty⟩ := exists_typeOfSelector_eq_some hft
  have hop : encodeOp Config.chip s.loadedKey ft id n pl = .error .keyNotLoaded := by
    simp only [encodeOp, hty, Nat.not_lt.mpr hlen, if_false, loadedKey_of_not_valid hvalid]
  exact (answer_eq _ s).trans (by rw [hop]; rfl)

/-- Settles O6: out of range, in range and unkeyed, in range and keyed; in the last case the frame's bytes are those of
`sealFrame_eq`, over the payload that `padPayload_isPadded` describes. -/
theorem encodeResult : Obligations.EncodeResult := by
  intro ft id n pl s
  refine ⟨fun hbad => ?_, exec_encode_of_not_valid id n, fun hft hlen hvalid => ?_⟩
  · exact exec_of_not_operandsInRange (i := .encode ft id n pl) (fun ⟨hft, hlen⟩ => by omega) s
  · obtain ⟨ty, rfl⟩ := exists_selectorOf_eq hft
    refine ⟨tagOf Config.chip ty, _, tagOf_eq_ite _ ty, padPayload_isPadded _ pl, ?_⟩
    rw [exec_encode_of_valid id n (typeOfSelector_selectorOf ty) hlen hvalid, sealFrame_eq]
    rfl

/-! ### DECODE (R87, R88) -/

/-- DECODE answers its outcome and changes nothing (R84). -/
theorem exec_decode (buf : Packet) (s : State) :
    exec (.decode buf) s = .next (s.respond (responseOf (decodeOp Config.chip s.loadedKey buf))) := answer_eq _ s

/-- Step 1 of R87, the length gate. -/
theorem decodeOp_of_length_ne (c : Config) (key : Option Key) {buf : Packet} (h : buf.length ≠ 12) :
    decodeOp c key buf = .error .badLength := by
  simp only [decodeOp, splitFrame_eq_none.mpr h]

theorem exec_decode_of_length_ne {buf : Packet} (h : buf.length ≠ 12) (s : State) :
    exec (.decode buf) s = .next (s.respond [0x01#8]) := by
  rw [exec_decode, decodeOp_of_length_ne _ _ h]
  rfl

/-- A buffer of 12 bytes is made of the parts of a frame (R88). -/
theorem exists_parts_of_length_eq {buf : Packet} (h : buf.length = 12) :
    ∃ (t id n g : Byte) (ct : Block8), buf = [t, id, n] ++ ct.toList ++ [g] := by
  obtain ⟨⟨t, id, n, ct, g⟩, hsplit⟩ :=
    Option.ne_none_iff_exists'.mp fun hnone => splitFrame_eq_none.mp hnone h
  exact ⟨t, id, n, g, ct, (buildFrame_splitFrame hsplit).symm⟩

/-- Step 2a of R87, the type check. -/
theorem decodeOp_of_foreign_tag {c : Config} {t : Byte} (key : Option Key) (id n g : Byte) (ct : Block8)
    (h : t ≠ c.tagMeasure ∧ t ≠ tagControl c) :
    decodeOp c key ([t, id, n] ++ ct.toList ++ [g]) = .error .unknownType := by
  have hsplit : splitFrame ([t, id, n] ++ ct.toList ++ [g]) = some ⟨t, id, n, ct, g⟩ :=
    splitFrame_buildFrame ⟨t, id, n, ct, g⟩
  simp only [decodeOp, hsplit, typeOfTag_eq_none.mpr h]

theorem exec_decode_frame_of_not_valid (ty : FrameType) (id n g : Byte) (ct : Block8) {s : State}
    (h : s.keyValid = false) :
    exec (.decode ([tagOf Config.chip ty, id, n] ++ ct.toList ++ [g])) s = .next (s.respond [0x10#8]) := by
  rw [exec_decode, decodeOp_frame, loadedKey_of_not_valid h]
  rfl

theorem plaintextOf_getElem (c : Config) (k : Key) (ty : FrameType) (id n : Byte) (ct : Block8) (i : Fin 8) :
    (plaintextOf c k ty id n ct)[i] = ct[i] ^^^ (c.ks k (tagOf c ty) id n)[i] := xor8_getElem ct _ i i.isLt

/-- The good response to a frame, read off its type tag (R63). -/
theorem ok_frameResult_eq_ite (c : Config) (ty : FrameType) (id : Byte) (pt : Block8) :
    0x00#8 :: frameResult ty id pt =
      if tagOf c ty = c.tagMeasure then [0x00#8, 0x00#8, id] ++ pt.toList else [0x00#8, 0x01#8, id, pt[0]] := by
  cases ty with
  | measure => exact (if_pos rfl).symm
  | control => exact (if_neg (tagMeasure_ne_tagControl c).symm).symm

/-- Settles O7: the length gate; then byte 0 is foreign, or the tag of a type, and the frame of a type ends by whether a key
is loaded and whether the received tag is that of the plaintext. -/
theorem decodeResult : Obligations.DecodeResult := by
  intro buf s
  refine ⟨fun hlen => exec_decode_of_length_ne hlen s, fun hlen => ?_⟩
  obtain ⟨t, id, n, g, ct, rfl⟩ := exists_parts_of_length_eq hlen
  by_cases hforeign : t ≠ Config.chip.tagMeasure ∧ t ≠ tagControl Config.chip
  · refine ⟨t, id, n, g, ct, xor8 ct (Config.chip.ks s.key t id n), rfl, fun i => xor8_getElem ct _ i i.isLt, ?_⟩
    rw [exec_decode, decodeOp_of_foreign_tag _ id n g ct hforeign, if_pos hforeign]
    rfl
  obtain ⟨ty, rfl⟩ : ∃ ty, tagOf Config.chip ty = t := exists_tagOf_eq (or_iff_not_and_not.mpr hforeign)
  refine ⟨tagOf Config.chip ty, id, n, g, ct, plaintextOf Config.chip s.key ty id n ct, rfl,
    plaintextOf_getElem Config.chip s.key ty id n ct, ?_⟩
  rw [if_neg hforeign]
  cases hvalid : s.keyValid with
  | false => exact exec_decode_frame_of_not_valid ty id n g ct hvalid
  | true =>
    rw [if_neg (by decide), ← ok_frameResult_eq_ite]
    split
    case isTrue hne => exact exec_decode_frame_of_tag_ne hvalid hne
    case isFalse heq => exact exec_decode_frame_of_tag_eq hvalid (not_not.mp heq)

/-- Settles O11: the length gate reads nothing of the configuration, the type check its two tags, and neither reads the key. -/
theorem gatesNeedNoKeyedTransform : Obligations.GatesNeedNoKeyedTransform := by
  intro c c' key key' buf htag hgap
  have hcontrol : tagControl c' = tagControl c := by simp only [tagControl, htag, hgap]
  refine ⟨fun hlen => ⟨decodeOp_of_length_ne c key hlen, decodeOp_of_length_ne c' key' hlen⟩, fun hlen hmeas hctrl => ?_⟩
  obtain ⟨t, id, n, g, ct, rfl⟩ := exists_parts_of_length_eq hlen
  have hforeign : t ≠ c.tagMeasure ∧ t ≠ tagControl c := ⟨by simpa using hmeas, by simpa using hctrl⟩
  have hforeign' : t ≠ c'.tagMeasure ∧ t ≠ tagControl c' := by rwa [htag, hcontrol]
  exact ⟨decodeOp_of_foreign_tag key id n g ct hforeign, decodeOp_of_foreign_tag key' id n g ct hforeign'⟩

/-- Settles O24: DECODE reads the state through the loaded key only, and a run without a reset keeps that
(`keyLockedOverRuns`). -/
theorem replayAnswersTheSame : Obligations.ReplayAnswersTheSame := by
  intro n s buf hvalid hnoreset
  obtain ⟨t, hrun, hkey, hvalid'⟩ := keyLockedOverRuns n s hvalid hnoreset
  have hloaded : t.loadedKey = s.loadedKey := by rw [loadedKey_of_valid hvalid', loadedKey_of_valid hvalid, hkey]
  exact ⟨t, _, hrun, exec_decode buf s, hloaded ▸ exec_decode buf t⟩

/-! ### DECODE of what ENCODE builds (R93) -/

/-- A frame built under a key decodes on every block with that key, since the keystream cancels and the tag is that of the
plaintext. -/
theorem exec_decode_sealFrame {s : State} (ty : FrameType) (id n : Byte) (pt : Block8) (hvalid : s.keyValid = true) :
    exec (.decode (sealFrame Config.chip s.key ty id n pt)) s = .next (s.respond (0x00#8 :: frameResult ty id pt)) := by
  have hplain : plaintextOf Config.chip s.key ty id n (xor8 pt (ksgen Config.chip s.key (tagOf Config.chip ty) id n)) = pt :=
    xor8_xor8 pt _
  have hdecode := exec_decode_frame_of_tag_eq (ty := ty) (id := id) (n := n) hvalid (congrArg _ hplain)
  rwa [hplain] at hdecode

/-- Byte 0 of a frame is one of the two type tags. -/
theorem sealFrame_head (c : Config) (k : Key) (ty : FrameType) (id n : Byte) (pt : Block8) :
    (sealFrame c k ty id n pt)[0]? = some c.tagMeasure ∨ (sealFrame c k ty id n pt)[0]? = some (tagControl c) := by
  cases ty with
  | measure => exact .inl rfl
  | control => exact .inr rfl

/-- An instruction other than KEYLD and CTRLTX writes none of KEY, KEY_VALID and SEQ (R41). -/
theorem sameTriple_of_exec {i : Instr} {s t : State} (hkeyld : ∀ k, i ≠ .keyld k)
    (hctrltx : ∀ id ctrl, i ≠ .ctrltx id ctrl) (h : exec i s = .next t) : sameTriple s t := by
  cases (exec_eq i s).symm.trans h
  rw [effect_of_ne_keyld_ctrltx hkeyld hctrltx]
  exact ⟨rfl, rfl, rfl⟩

/-- Settles O10: (a) is `exec_decode_sealFrame` of the frame that ENCODE answers, (b) the length gate, (c) the first bytes of
that frame, and (d) that the two commands write nothing. -/
theorem serdesLaws : Obligations.SerdesLaws := by
  refine ⟨fun s s' ft id n pl hvalid hvalid' hkey hft hlen => ?_, fun buf s hlen => exec_decode_of_length_ne hlen s,
    fun ft id n pl buf s t h => ?_⟩
  · obtain ⟨ty, rfl⟩ := exists_selectorOf_eq hft
    have hdecode := exec_decode_sealFrame ty id n (padPayload Config.chip pl) hvalid'
    rw [hkey] at hdecode
    refine ⟨_, _, padPayload_isPadded _ pl, exec_encode_of_valid id n (typeOfSelector_selectorOf ty) hlen hvalid, ?_,
      sealFrame_length .., sealFrame_head .., rfl, rfl⟩
    cases ty <;> exact hdecode
  · obtain hencode | hdecode := h
    · exact sameTriple_of_exec (by simp) (by simp) hencode
    · exact sameTriple_of_exec (by simp) (by simp) hdecode

/-! ### The rows FRAME.MEASURE and FRAME.CONTROL (R91, R92) -/

/-- The row of a frame is DECODE of that frame: both are what the block does with it as a received buffer. -/
theorem exec_frameInstr {ty : FrameType} {f : FrameParts} (h : f.t = tagOf Config.chip ty) (s : State) :
    exec (frameInstr ty f) s = exec (.decode (buildFrame f)) s :=
  (acceptInput_command_ok (e := .fmtF (buildFrame f)) (decodeFrame_buildFrame Config.chip ty h) s).symm.trans
    (acceptInput_buffer (buildFrame f) s)

/-- The row of a frame on a keyed block answers by the plaintext alone whether the received tag passes. -/
theorem exec_frameInstr_of_valid (ty : FrameType) (id n g : Byte) (ct : Block8) {s : State} (h : s.keyValid = true) :
    ∃ pt : Block8,
      (∀ i : Fin 8, pt[i] = ct[i] ^^^ (Config.chip.ks s.key (tagOf Config.chip ty) id n)[i]) ∧
      (Config.chip.tag s.key (tagOf Config.chip ty) id n pt = g →
        exec (frameInstr ty ⟨tagOf Config.chip ty, id, n, ct, g⟩) s = .next (s.respond (0x00#8 :: frameResult ty id pt))) ∧
      (Config.chip.tag s.key (tagOf Config.chip ty) id n pt ≠ g →
        exec (frameInstr ty ⟨tagOf Config.chip ty, id, n, ct, g⟩) s = .next (s.respond [0x03#8])) :=
  ⟨plaintextOf Config.chip s.key ty id n ct, plaintextOf_getElem Config.chip s.key ty id n ct,
    fun htag => (exec_frameInstr rfl s).trans (exec_decode_frame_of_tag_eq h htag),
    fun htag => (exec_frameInstr rfl s).trans (exec_decode_frame_of_tag_ne h htag)⟩

theorem exec_frameInstr_of_not_valid (ty : FrameType) (id n g : Byte) (ct : Block8) {s : State} (h : s.keyValid = false) :
    exec (frameInstr ty ⟨tagOf Config.chip ty, id, n, ct, g⟩) s = .next (s.respond [0x10#8]) :=
  (exec_frameInstr rfl s).trans (exec_decode_frame_of_not_valid ty id n g ct h)

/-- Settles O8: the rows are the two types' cases of what DECODE answers to a frame. -/
theorem frameRows : Obligations.FrameRows := fun id n g ct _ =>
  ⟨fun h => ⟨exec_frameInstr_of_not_valid .measure id n g ct h, exec_frameInstr_of_not_valid .control id n g ct h⟩,
    fun h => ⟨exec_frameInstr_of_valid .measure id n g ct h, exec_frameInstr_of_valid .control id n g ct h⟩⟩

/-! ### A Measurement from block to block (R51, R91) -/

theorem exists_sealFrame_eq_buildFrame (c : Config) (k : Key) (ty : FrameType) (id n : Byte) (pt : Block8) :
    ∃ ct g, sealFrame c k ty id n pt = buildFrame ⟨tagOf c ty, id, n, ct, g⟩ := ⟨_, _, rfl⟩

/-- A payload of 8 bytes is not padded (R53). -/
theorem padPayload_toList (c : Config) (pt : Block8) : padPayload c pt.toList = pt := by
  ext1 i hi
  simp [padByte, hi]

/-- Settles O13: the payload of the Measurement is a full block (`measurementFields`), so it is what the other block decodes. -/
theorem measurementEndToEnd : Obligations.MeasurementEndToEnd := by
  intro s s' id n m hvalid hvalid' hkey hm
  obtain ⟨pt, hpayload, -, -, -, -, hread⟩ := measurementFields.1 m hm
  have hencode : exec (encodeM id n m) s =
      .next (s.respond (0x00#8 :: sealFrame Config.chip s.key .measure id n pt)) := by
    rw [encodeM, ← hpayload, exec_encode_of_valid id n rfl (by simp) hvalid, padPayload_toList]
  have hdecode := exec_decode_sealFrame .measure id n pt hvalid'
  rw [hkey] at hdecode
  obtain ⟨ct, g, hframe⟩ := exists_sealFrame_eq_buildFrame Config.chip s.key .measure id n pt
  rw [hframe] at hencode hdecode
  exact ⟨_, pt, ct, g, hencode, hdecode, decodeFrame_buildFrame Config.chip .measure rfl,
    (exec_frameInstr (ty := .measure) rfl s').trans hdecode, hread⟩

/-! ### The commands right after a reset (R119, R120) -/

/-- Settles O27: the packer reads no state; the other commands answer as on any unkeyed block (`encodeResult`,
`decodeResult`). -/
theorem outcomesRightAfterReset : Obligations.OutcomesRightAfterReset := by
  intro s
  refine ⟨afterReset_seq s, afterReset_keyValid s, fun _ _ _ _ => ⟨_, answer_eq _ s, answer_eq _ _⟩,
    fun _ => ⟨_, answer_eq _ s, answer_eq _ _⟩, fun ctrl => ⟨_, exec_unpack ctrl s, exec_unpack ctrl _⟩,
    fun k => ⟨_, exec_eq (.keyld k) _, rfl⟩, fun ft id n pl => ?_, fun buf => ?_,
    fun id ctrl => exec_eq (.ctrltx id ctrl) _⟩
  · obtain ⟨hbad, hunkeyed, -⟩ := encodeResult ft id n pl s.afterReset
    split
    case isTrue h => exact hbad h
    case isFalse h => exact hunkeyed (by omega) (by omega) rfl
  · obtain ⟨hbad, hparts⟩ := decodeResult buf s.afterReset
    split
    case isTrue h => exact hbad h
    case isFalse h =>
      obtain ⟨t, id, n, g, ct, pt, rfl, -, hdecode⟩ := hparts (not_not.mp h)
      rw [hdecode, afterReset_keyValid, if_pos rfl]
      simp only [List.cons_append, List.getElem?_cons_zero, ne_eq, Option.some.injEq]
      split <;> rfl

end Sys2Proof.Machine


/-! ## The sequencer and the key store: CTRLTX and KEYLD (spec/44_sequencer_and_key.md)

What the two commands that write persistent state answer; then one step of a keyed block on its oldest input, and by
induction along the queue the nonce of every CTRLTX of a run. -/

namespace Sys2Proof.Machine

/-! ### KEYLD (R58, R99) -/

theorem exec_keyld_of_valid (k : Key) {s : State} (h : s.keyValid = true) :
    exec (.keyld k) s = .next (s.respond [0x11#8]) := by
  rw [exec_eq, effect_keyld_of_valid k h]
  simp only [outcome, h]
  rfl

theorem exec_keyld_of_not_valid (k : Key) {s : State} (h : s.keyValid = false) :
    exec (.keyld k) s = .next ((s.installKey k).respond [0x00#8]) := by
  rw [exec_eq, effect_keyld_of_not_valid k h]
  simp only [outcome, h]
  rfl

/-- Settles O20: the two ways in which KEYLD can end. -/
theorem keyldResult : Obligations.KeyldResult := fun k _ => ⟨exec_keyld_of_valid k, exec_keyld_of_not_valid k⟩

/-! ### CTRLTX (R64, R97) -/

/-- The response that carries the CONTROL frame of a control byte under a nonce: what CTRLTX answers on a keyed block, by
`exec_ctrltx_of_valid`. -/
def controlResponse (k : Key) (id n ctrl : Byte) : Packet :=
  0x00#8 :: sealFrame Config.chip k .control id n (padPayload Config.chip [ctrl])

/-- The bytes of that response, over the payload of R52 padded by R53. -/
theorem controlResponse_eq (k : Key) (id n ctrl : Byte) :
    ∃ pt : Block8, isPadded Config.chip [ctrl] pt ∧
      controlResponse k id n ctrl =
        [0x00#8, tagControl Config.chip, id, n] ++
          List.ofFn (fun i : Fin 8 => pt[i] ^^^ (Config.chip.ks k (tagControl Config.chip) id n)[i]) ++
          [Config.chip.tag k (tagControl Config.chip) id n pt] :=
  ⟨_, padPayload_isPadded _ _, congrArg (0x00#8 :: ·) (sealFrame_eq Config.chip k .control id n _)⟩

theorem exec_ctrltx_of_not_valid (id ctrl : Byte) {s : State} (h : s.keyValid = false) :
    exec (.ctrltx id ctrl) s = .next (s.respond [0x10#8]) := by
  rw [exec_eq, effect_ctrltx_of_not_valid id ctrl h]
  simp only [outcome, loadedKey_of_not_valid h]
  rfl

/-- On a keyed block SEQ is stepped, and the frame carries the new value (R97). -/
theorem exec_ctrltx_of_valid (id ctrl : Byte) {s : State} (h : s.keyValid = true) :
    exec (.ctrltx id ctrl) s = .next (s.stepSeq.respond (controlResponse s.key id (s.seq + 1#8) ctrl)) := by
  rw [exec_eq, effect_ctrltx_of_valid id ctrl h]
  simp only [outcome, loadedKey_of_valid h]
  rfl

/-- No other instruction writes SEQ (R24). -/
theorem seq_of_exec {i : Instr} {s t : State} (hi : ∀ id ctrl, i ≠ .ctrltx id ctrl) (h : exec i s = .next t) :
    t.seq = s.seq := by
  obtain ⟨hseq, -⟩ := onlyWritesOfPersistentState i s t h
  cases i with
  | ctrltx id ctrl => exact absurd rfl (hi id ctrl)
  | _ => exact hseq

/-- A nonce counted in numbers wraps as one counted in bytes (R98). -/
theorem ofNat_mod_256 (n : Nat) : (BitVec.ofNat 8 (n % 256) : Byte) = BitVec.ofNat 8 n := by
  apply BitVec.eq_of_toNat_eq
  simp

theorem seq_add_one (b : Byte) : BitVec.ofNat 8 ((b.toNat + 1) % 256) = b + 1#8 := by
  rw [ofNat_mod_256, BitVec.ofNat_add, BitVec.ofNat_toNat, BitVec.setWidth_eq]

/-- Settles O19: `seq_of_exec` for the other instructions; unkeyed and keyed for CTRLTX, where ENCODE on the stepped state
answers the same response and `controlResponse_eq` gives its bytes. -/
theorem ctrltxResult : Obligations.CtrltxResult := by
  refine ⟨fun i s t => seq_of_exec, fun id ctrl s => ⟨exec_ctrltx_of_not_valid id ctrl, fun hvalid => ⟨?_, ?_⟩⟩⟩
  · have hencode : exec (.encode 0x01#8 id (s.seq + 1#8) [ctrl]) s.stepSeq =
        .next (s.stepSeq.respond (controlResponse s.key id (s.seq + 1#8) ctrl)) :=
      exec_encode_of_valid (ty := .control) id _ rfl (by simp) hvalid
    exact (exec_ctrltx_of_valid id ctrl hvalid).trans hencode.symm
  · obtain ⟨pt, hpadded, hbytes⟩ := controlResponse_eq s.key id (s.seq + 1#8) ctrl
    refine ⟨pt, hpadded, ?_⟩
    rw [exec_ctrltx_of_valid id ctrl hvalid, hbytes, seq_add_one]
    rfl

/-! ### One step of a keyed block (R42, R97) -/

theorem isCtrltx_iff {x : HostInput} : isCtrltx x = true ↔ ∃ id ctrl, x = .command (encode (.ctrltx id ctrl)) := by
  constructor
  · fun_cases isCtrltx x
    case case1 op id ctrl =>
      intro h
      exact ⟨id, ctrl, by rw [of_decide_eq_true h]; rfl⟩
    case case2 => intro h; cases h
  · rintro ⟨id, ctrl, rfl⟩
    rfl

theorem step_of_ctrltx {s : State} {id ctrl : Byte} {rest : List HostInput} (hvalid : s.keyValid = true)
    (hq : s.inbox = .command (encode (.ctrltx id ctrl)) :: rest) :
    step s = .next ((s.withInbox rest).stepSeq.respond (controlResponse s.key id (s.seq + 1#8) ctrl)) :=
  (step_of_inbox_cons hq).trans
    ((acceptInput_command_ok (decodeOfEncode (.ctrltx id ctrl) rfl) _).trans (exec_ctrltx_of_valid id ctrl hvalid))

/-- A command that is no CTRLTX packet does not decode to CTRLTX (`encodeOfDecode`), so it leaves SEQ alone. -/
theorem seq_of_step_of_not_isCtrltx {s t : State} {e : Encoded} {rest : List HostInput}
    (hq : s.inbox = .command e :: rest) (he : isCtrltx (.command e) = false) (h : step s = .next t) : t.seq = s.seq := by
  rw [step_of_inbox_cons hq] at h
  cases hdecode : decode e with
  | error f =>
    cases (acceptInput_command_error hdecode _).symm.trans h
    rfl
  | ok i =>
    rw [acceptInput_command_ok hdecode] at h
    refine seq_of_exec (s := s.withInbox rest) (fun id ctrl hi => ?_) h
    obtain ⟨hencode, -⟩ := encodeOfDecode e i hdecode
    have hctrltx : isCtrltx (.command e) = true := isCtrltx_iff.mpr ⟨id, ctrl, by rw [← hencode, hi]⟩
    cases he.symm.trans hctrltx

/-- On a locked block a step answers the oldest input, and SEQ counts it if and only if it is a CTRLTX packet, which is
answered with the frame under the counted value. -/
theorem step_sequenced {k : Key} {m : Nat} {s : State} {x : HostInput} {rest : List HostInput} (h : s.lockedOn k)
    (hseq : s.seq = BitVec.ofNat 8 m) (hq : s.inbox = x :: rest) :
    ∃ t r, step s = .next t ∧ t.lockedOn k ∧ t.inbox = rest ∧ t.outbox = s.outbox ++ [r] ∧
      t.seq = BitVec.ofNat 8 (m + if isCtrltx x then 1 else 0) ∧
      ∀ id ctrl, x = .command (encode (.ctrltx id ctrl)) → r = controlResponse k id (BitVec.ofNat 8 (m + 1)) ctrl := by
  obtain ⟨t, hstep, hlocked⟩ := step_lockedOn h
  obtain ⟨hkey, hvalid, hnoreset⟩ := h
  cases x with
  | reset => simp [hq] at hnoreset
  | command e =>
    cases he : isCtrltx (.command e) with
    | true =>
      obtain ⟨id, ctrl, hx⟩ := isCtrltx_iff.mp he
      have hctrltx := step_of_ctrltx hvalid (hx ▸ hq)
      cases hstep.symm.trans hctrltx
      have hnext : s.seq + 1#8 = BitVec.ofNat 8 (m + 1) := by rw [hseq, BitVec.ofNat_add]
      refine ⟨_, _, hstep, hlocked, rfl, rfl, hnext, fun id' ctrl' hx' => ?_⟩
      cases hx.symm.trans hx'
      rw [hkey, hnext]
    | false =>
      obtain ⟨t', hstep', -, -, hanswered⟩ := everyCommandAnswered s
      cases hstep.symm.trans hstep'
      obtain ⟨hrest, r, -, hout⟩ := hanswered e rest hq
      have hkept : t.seq = s.seq := seq_of_step_of_not_isCtrltx hq he hstep
      refine ⟨t, r, hstep, hlocked, hrest, hout, hkept.trans hseq, fun id ctrl hx => ?_⟩
      cases he.symm.trans (isCtrltx_iff.mpr ⟨id, ctrl, hx⟩)

/-! ### The nonces of a run (R43, R98) -/

theorem countCtrltx_cons (x : HostInput) (q : List HostInput) :
    countCtrltx (x :: q) = (if isCtrltx x then 1 else 0) + countCtrltx q := by
  rw [countCtrltx, List.countP_cons, Nat.add_comm]
  rfl

/-- What a run over the queue `q` has answered in `rs`, from SEQ = m modulo 256: one response for each input, and for each
CTRLTX the frame whose nonce counts the CTRLTX up to it. -/
def answersInSequence (k : Key) (m : Nat) (q : List HostInput) (rs : List Packet) : Prop :=
  rs.length = q.length ∧
  ∀ (j : Nat) (id ctrl : Byte), q[j]? = some (.command (encode (.ctrltx id ctrl))) →
    rs[j]? = some (controlResponse k id (BitVec.ofNat 8 (m + countCtrltx (q.take j) + 1)) ctrl)

theorem answersInSequence_nil (k : Key) (m : Nat) : answersInSequence k m [] [] := ⟨rfl, by simp⟩

/-- The first input's response, then those of a run that begins with the first input counted. -/
theorem answersInSequence_cons {k : Key} {m : Nat} {x : HostInput} {q : List HostInput} {r : Packet} {rs : List Packet}
    (hfirst : ∀ id ctrl, x = .command (encode (.ctrltx id ctrl)) → r = controlResponse k id (BitVec.ofNat 8 (m + 1)) ctrl)
    (hrest : answersInSequence k (m + if isCtrltx x then 1 else 0) q rs) : answersInSequence k m (x :: q) (r :: rs) := by
  obtain ⟨hlen, hanswers⟩ := hrest
  refine ⟨congrArg (· + 1) hlen, fun j id ctrl hj => ?_⟩
  cases j with
  | zero => exact congrArg some (hfirst id ctrl (Option.some.inj hj))
  | succ j =>
    rw [List.take_succ_cons, countCtrltx_cons, ← Nat.add_assoc]
    exact hanswers j id ctrl hj

/-- One step per waiting input, on a locked block. -/
theorem run_sequenced (q : List HostInput) {k : Key} {m : Nat} {s : State} (h : s.lockedOn k)
    (hseq : s.seq = BitVec.ofNat 8 m) (hq : s.inbox = q) :
    ∃ t rs, run q.length s = .next t ∧ t.lockedOn k ∧ t.inbox = [] ∧ t.outbox = s.outbox ++ rs ∧
      t.seq = BitVec.ofNat 8 (m + countCtrltx q) ∧ answersInSequence k m q rs := by
  induction q generalizing s m with
  | nil => exact ⟨s, [], run_zero s, h, hq, (List.append_nil _).symm, hseq, answersInSequence_nil k m⟩
  | cons x rest ih =>
    obtain ⟨u, r, hstep, hu, hurest, huout, huseq, hfirst⟩ := step_sequenced h hseq hq
    obtain ⟨t, rs, hrun, ht, htq, htout, htseq, hrest⟩ := ih hu huseq hurest
    refine ⟨t, r :: rs, (run_of_step hstep).trans hrun, ht, htq, ?_, ?_, answersInSequence_cons hfirst hrest⟩
    · rw [htout, huout, List.append_assoc, List.singleton_append]
    · rw [htseq, countCtrltx_cons, Nat.add_assoc]

/-- Settles O22: `run_sequenced` from the start value of SEQ, with the bytes of each response by `controlResponse_eq`. -/
theorem nonceSequence : Obligations.NonceSequence := by
  intro s hvalid hnoreset
  have hseq : s.seq = BitVec.ofNat 8 s.seq.toNat := by simp
  obtain ⟨t, rs, hrun, ⟨hkey, hvalid', -⟩, hq, hout, htseq, hlen, hanswers⟩ :=
    run_sequenced s.inbox ⟨rfl, hvalid, hnoreset⟩ hseq rfl
  refine ⟨t, rs, hrun, htseq, hkey, hvalid', hq, hout, hlen, fun j id ctrl hj => ?_⟩
  obtain ⟨pt, hpadded, hbytes⟩ := controlResponse_eq s.key id
    (BitVec.ofNat 8 ((s.seq.toNat + countCtrltx (s.inbox.take j) + 1) % 256)) ctrl
  refine ⟨_, pt, rfl, hpadded, ?_⟩
  rw [← hbytes, ofNat_mod_256]
  exact hanswers j id ctrl hj

end Sys2Proof.Machine


/-! ## Outcomes and failures: what a failure leaves, and which failures a correct host meets (spec/60_exceptions.md)

A failed instruction has no effect, so the response is all that it adds; and with a key loaded and the operands in range, the
reasons left are those that the source classifies. -/

namespace Sys2Proof.Machine

/-! ### What a failure leaves as it was (R101, R104) -/

/-- KEYLD and CTRLTX, the two that write persistent state, write it only where they succeed. -/
theorem effect_of_outcome_error {i : Instr} {s : State} {f : Failure} (h : outcome i s = .error f) : effect i s = s := by
  cases i with
  | keyld k =>
    cases hvalid : s.keyValid with
    | true => exact effect_keyld_of_valid k hvalid
    | false => simp [outcome, hvalid] at h
  | ctrltx id ctrl =>
    cases hvalid : s.keyValid with
    | true => simp [outcome, loadedKey_of_valid hvalid] at h
    | false => exact effect_ctrltx_of_not_valid id ctrl hvalid
  | _ => exact effect_of_ne_keyld_ctrltx (by simp) (by simp) s

/-- A response that does not begin with OK is that of a failure. -/
theorem exists_error_of_head_ne_ok {r : Except Failure Packet} (h : (responseOf r).head? ≠ some 0x00#8) :
    ∃ f, r = .error f := by
  cases r with
  | ok p => exact absurd rfl h
  | error f => exact ⟨f, rfl⟩

/-- Settles O34: a rejected command is answered and no more, and so is one that runs and fails (`effect_of_outcome_error`). -/
theorem failureChangesNothing : Obligations.FailureChangesNothing := by
  intro s t e rest hq hnext
  rw [step_of_inbox_cons hq] at hnext
  cases hdecode : decode e with
  | error f =>
    cases (acceptInput_command_error hdecode _).symm.trans hnext
    exact ⟨[failureCode f], rfl, fun _ => ⟨rfl, rfl⟩⟩
  | ok i =>
    cases ((acceptInput_command_ok hdecode _).trans (exec_eq i _)).symm.trans hnext
    refine ⟨responseOf (outcome i (s.withInbox rest)), by simp, fun hhead => ?_⟩
    obtain ⟨f, hf⟩ := exists_error_of_head_ne_ok hhead
    rw [effect_of_outcome_error hf, hf]
    exact ⟨rfl, rfl⟩

/-! ### The failures of a correct host (R102, R103, R106) -/

/-- The four reasons that the source classifies have the codes 0x01 to 0x04. -/
theorem failureCode_mem_of_failureClass {f : Failure} (h : (failureClass f).isSome) :
    failureCode f ∈ [0x01#8, 0x02#8, 0x03#8, 0x04#8] := by
  revert h
  cases f <;> decide

theorem oneByte_eq_error {r : Except Failure Byte} {f : Failure} : oneByte r = .error f ↔ r = .error f := by
  cases r <;> simp [oneByte]

theorem exists_packOp_eq_ok {a b c d : Byte} (h : operandsInRange (.pack a b c d)) : ∃ x, packOp a b c d = .ok x := by
  obtain ⟨ha, hb, hc, hd⟩ := h
  obtain ⟨w, rfl⟩ := exists_slotByte ha
  obtain ⟨x, rfl⟩ := exists_slotByte hb
  obtain ⟨y, rfl⟩ := exists_slotByte hc
  obtain ⟨z, rfl⟩ := exists_slotByte hd
  exact ⟨_, packOp_slotByte w x y z⟩

/-- Opening a frame with a key has one failure reason (step 3 of R87). -/
theorem openFrame_some_error {c : Config} {k : Key} {ty : FrameType} {id n g : Byte} {ct : Block8} {f : Failure}
    (h : openFrame c (some k) ty id n ct g = .error f) : f = .authFailed := by
  rw [openFrame_some] at h
  split at h
  · cases h
  · exact (Except.error.inj h).symm

/-- DECODE with a key fails only for reasons of the source. -/
theorem decodeOp_some_error {c : Config} {k : Key} {buf : Packet} {f : Failure}
    (h : decodeOp c (some k) buf = .error f) : (failureClass f).isSome := by
  unfold decodeOp at h
  split at h
  · cases h
    rfl
  · split at h
    · cases h
      rfl
    · cases openFrame_some_error h
      rfl

/-- With a key loaded and the operands in range, whatever fails but KEYLD fails for a reason of the source. -/
theorem failureClass_isSome_of_outcome_error {i : Instr} {s : State} {f : Failure} (hvalid : s.keyValid = true)
    (hrange : operandsInRange i) (hkeyld : ∀ k, i ≠ .keyld k) (h : outcome i s = .error f) : (failureClass f).isSome := by
  have hkey := loadedKey_of_valid hvalid
  cases i with
  | keyld k => exact absurd rfl (hkeyld k)
  | pack a b c d =>
    obtain ⟨x, hx⟩ := exists_packOp_eq_ok hrange
    cases hx.symm.trans (oneByte_eq_error.mp h)
  | parse txt =>
    cases parseOp_error (oneByte_eq_error.mp h)
    rfl
  | unpack ctrl => cases h
  | encode ft id n pl =>
    obtain ⟨hft, hlen⟩ := hrange
    obtain ⟨ty, hty⟩ := exists_typeOfSelector_eq_some hft
    simp only [outcome, hkey, encodeOp_some _ _ id n hty hlen] at h
    cases h
  | decode buf =>
    simp only [outcome, hkey] at h
    exact decodeOp_some_error h
  | ctrltx id ctrl =>
    simp only [outcome, hkey] at h
    cases h
  | frameMeasure id n ct g =>
    simp only [outcome, hkey] at h
    cases openFrame_some_error h
    rfl
  | frameControl id n ct g =>
    simp only [outcome, hkey] at h
    cases openFrame_some_error h
    rfl
  | ctrlByte s0 s1 s2 s3 => cases (packOp_slotByte s0 s1 s2 s3).symm.trans (oneByte_eq_error.mp h)

/-- Settles O35: the encoding decodes (`decodeOfEncode`), and the response begins with OK or with the code of a failure that
the source classifies. -/
theorem correctHostMeetsNoAddedFailure : Obligations.CorrectHostMeetsNoAddedFailure := by
  intro i s hvalid hrange hwf hkeyld
  refine ⟨decodeOfEncode i hwf, ?_⟩
  cases h : outcome i s with
  | ok p => exact ⟨_, statusOk, p, exec_eq i s, by simp [h], List.mem_cons_self⟩
  | error f =>
    have hclass := failureClass_isSome_of_outcome_error hvalid hrange hkeyld h
    exact ⟨_, failureCode f, [], exec_eq i s, by simp [h],
      List.mem_cons_of_mem _ (failureCode_mem_of_failureClass hclass)⟩

end Sys2Proof.Machine


/-! ## Reset, and blocks set up apart: what a reset erases and what two configurations share (spec/70_reset_and_hazards.md)

First the reset event and the runs behind it: two blocks that agree on SEQ and on the loaded key, whatever their storage of KEY
holds while no key is loaded, answer every command alike. Then what DECODE under one configuration makes of a frame that was
built under another. -/

namespace Sys2Proof.Machine

/-! ### The reset event (R117, R119) -/

theorem step_of_reset {s : State} {rest : List HostInput} (h : s.inbox = .reset :: rest) :
    step s = .next (s.withInbox rest).afterReset := step_of_inbox_cons h

/-- Settles O26, by the fields of the state after the reset event. -/
theorem resetEvent : Obligations.ResetEvent := fun _ _ hq =>
  ⟨_, step_of_reset hq, afterReset_seq _, afterReset_keyValid _, afterReset_inbox _, afterReset_outbox _⟩

/-! ### Two blocks with one loaded key and one SEQ (R18, R31, R119) -/

/-- Two states that hold the same SEQ and the same loaded key, or both none. Unlike `sameTriple` it says nothing of what is stored
in KEY while no key is loaded, so any two blocks are so right after a reset. -/
def sameLoaded (s s' : State) : Prop := s.loadedKey = s'.loadedKey ∧ s.seq = s'.seq

theorem sameLoaded_afterReset (s s' : State) : sameLoaded s.afterReset s'.afterReset := ⟨rfl, rfl⟩

theorem loadedKey_isSome (s : State) : s.loadedKey.isSome = s.keyValid := by
  cases h : s.keyValid with
  | true => rw [loadedKey_of_valid h, Option.isSome_some]
  | false => rw [loadedKey_of_not_valid h, Option.isSome_none]

theorem keyValid_of_sameLoaded {s s' : State} (h : sameLoaded s s') : s.keyValid = s'.keyValid := by
  obtain ⟨hloaded, -⟩ := h
  rw [← loadedKey_isSome s, hloaded, loadedKey_isSome]

/-- Every instruction reads KEY through the accessor of the loaded key. -/
theorem outcome_of_sameLoaded (i : Instr) {s s' : State} (h : sameLoaded s s') : outcome i s = outcome i s' := by
  have hvalid := keyValid_of_sameLoaded h
  obtain ⟨hloaded, hseq⟩ := h
  simp only [outcome, hvalid, hloaded, nextSeq_eq, hseq]

/-- KEYLD loads one key in both blocks, CTRLTX steps both SEQ. -/
theorem sameLoaded_effect (i : Instr) {s s' : State} (h : sameLoaded s s') : sameLoaded (effect i s) (effect i s') := by
  have hvalid := keyValid_of_sameLoaded h
  obtain ⟨hloaded, hseq⟩ := h
  unfold effect
  rw [← hvalid]
  split
  · exact ⟨rfl, hseq⟩
  · exact ⟨hloaded, congrArg (· + 1#8) hseq⟩
  · exact ⟨hloaded, hseq⟩

/-- A command is answered alike, whether it is rejected or run, and leaves the two blocks alike. -/
theorem acceptInput_command_of_sameLoaded (e : Encoded) {s s' : State} (h : sameLoaded s s') :
    ∃ u u' r, acceptInput (.command e) s = .next (u.respond r) ∧ acceptInput (.command e) s' = .next (u'.respond r) ∧
      sameLoaded u u' ∧ u.inbox = s.inbox ∧ u'.inbox = s'.inbox ∧ u.outbox = s.outbox ∧ u'.outbox = s'.outbox := by
  cases hdecode : decode e with
  | error f =>
    exact ⟨s, s', _, acceptInput_command_error hdecode s, acceptInput_command_error hdecode s', h, rfl, rfl, rfl, rfl⟩
  | ok i =>
    refine ⟨effect i s, effect i s', responseOf (outcome i s), ?_, ?_, sameLoaded_effect i h, effect_inbox i s,
      effect_inbox i s', effect_outbox i s, effect_outbox i s'⟩
    · rw [acceptInput_command_ok hdecode, exec_eq]
    · rw [acceptInput_command_ok hdecode, exec_eq, outcome_of_sameLoaded i h]

/-- The runs that empty two queues of the same commands, from blocks with one loaded key and one SEQ. -/
theorem run_of_sameLoaded (cmds : List Encoded) {s s' : State} (h : sameLoaded s s')
    (hq : s.inbox = cmds.map .command) (hq' : s'.inbox = cmds.map .command) :
    ∃ t t' rs, run cmds.length s = .next t ∧ run cmds.length s' = .next t' ∧ sameLoaded t t' ∧
      t.outbox = s.outbox ++ rs ∧ t'.outbox = s'.outbox ++ rs ∧ rs.length = cmds.length := by
  induction cmds generalizing s s' with
  | nil => exact ⟨s, s', [], run_zero s, run_zero s', h, (List.append_nil _).symm, (List.append_nil _).symm, rfl⟩
  | cons e cmds ih =>
    obtain ⟨u, u', r, haccept, haccept', hu, huq, huq', hout, hout'⟩ :=
      acceptInput_command_of_sameLoaded (s := s.withInbox (cmds.map .command))
        (s' := s'.withInbox (cmds.map .command)) e h
    obtain ⟨t, t', rs, hrun, hrun', ht, htout, htout', hlen⟩ := ih (s := u.respond r) (s' := u'.respond r) hu huq huq'
    have hstep := (step_of_inbox_cons hq).trans haccept
    have hstep' := (step_of_inbox_cons hq').trans haccept'
    refine ⟨t, t', r :: rs, (run_of_step hstep).trans hrun, (run_of_step hstep').trans hrun', ht, ?_, ?_,
      congrArg (· + 1) hlen⟩
    · simp [htout, hout]
    · simp [htout', hout']

/-- Settles O28: the reset event leaves both blocks with no loaded key and SEQ = 0 (`sameLoaded_afterReset`), and the commands
behind it are answered alike (`run_of_sameLoaded`). -/
theorem resetErasesHistory : Obligations.ResetErasesHistory := by
  intro s s' cmds hq hq'
  obtain ⟨t, t', rs, hrun, hrun', ht, hout, hout', hlen⟩ :=
    run_of_sameLoaded cmds (sameLoaded_afterReset (s.withInbox (cmds.map .command)) (s'.withInbox (cmds.map .command)))
      rfl rfl
  exact ⟨t, t', rs, (run_of_step (step_of_reset hq)).trans hrun, (run_of_step (step_of_reset hq')).trans hrun', hout, hout',
    hlen, ht.2, keyValid_of_sameLoaded ht⟩

/-! ### A frame read under another configuration (R87, R132) -/

/-- DECODE undoes ENCODE under one configuration and key, since the keystream cancels and the tag is that of the plaintext. -/
theorem decodeOp_sealFrame (c : Config) (k : Key) (ty : FrameType) (id n : Byte) (pt : Block8) :
    decodeOp c (some k) (sealFrame c k ty id n pt) = .ok (frameResult ty id pt) := by
  have hplain : plaintextOf c k ty id n (xor8 pt (ksgen c k (tagOf c ty) id n)) = pt := xor8_xor8 pt _
  have hopen : openFrame c (some k) ty id n (xor8 pt (ksgen c k (tagOf c ty) id n)) (c.tag k (tagOf c ty) id n pt) =
      .ok (frameResult ty id pt) := openFrame_eq_ok.mpr ⟨k, rfl, by rw [hplain], by rw [hplain]⟩
  exact (decodeOp_frame c (some k) ty id n _ _).trans hopen

theorem tagOf_congr {c c' : Config} (htag : c'.tagMeasure = c.tagMeasure) (hgap : c'.tagGap = c.tagGap) (ty : FrameType) :
    tagOf c' ty = tagOf c ty := by
  cases ty with
  | measure => exact htag
  | control => simp only [tagOf, tagControl, htag, hgap]

/-- The frame of a padded payload depends on the type tags, KS and TAG only (R132). -/
theorem sealFrame_congr {c c' : Config} (htag : c'.tagMeasure = c.tagMeasure) (hgap : c'.tagGap = c.tagGap)
    (hks : c'.ks = c.ks) (hmac : c'.tag = c.tag) (k : Key) (ty : FrameType) (id n : Byte) (pt : Block8) :
    sealFrame c' k ty id n pt = sealFrame c k ty id n pt := by
  rw [sealFrame_eq, sealFrame_eq, tagOf_congr htag hgap, hks, hmac]

/-- Settles O18: the frame is the one that the second block would build of the same padded payload (`sealFrame_congr`), and so
it decodes; or its byte 0 is foreign to the second block. -/
theorem interoperation : Obligations.Interoperation := by
  intro c c' k ty id n pl hlen
  refine ⟨sealFrame c k ty id n (padPayload c pl), padPayload c pl, padPayload_isPadded c pl,
    encodeOp_some c k id n (typeOfSelector_selectorOf ty) hlen, fun htag hgap hks hmac => ?_, fun hmeas hctrl => ?_⟩
  · rw [← sealFrame_congr htag hgap hks hmac]
    exact decodeOp_sealFrame c' k ty id n _
  · exact decodeOp_of_foreign_tag (some k) id n _ _ ⟨hmeas, hctrl⟩

end Sys2Proof.Machine
